-- ==== Sys2Proof/Word.lean ====
section
/-! DEFINITION. The word types of the CHIP-8 execution engine (spec 00_scope.md R7, R9): nibble, byte, 12-bit
immediate and 16-bit word, all unsigned (R10), as bit vectors so that arithmetic wraps at the width. -/

namespace Sys2Proof

/-- Four bits: a register index x or y, DRAW's height n, a key index (R9, R72). -/
abbrev Nibble := BitVec 4

/-- Eight bits: a general register, a timer, a byte of memory (R9, R21, R26, R33). -/
abbrev Byte := BitVec 8

/-- The 12-bit immediate nnn (R72, R73). -/
abbrev Imm12 := BitVec 12

/-- Sixteen bits: the instruction word, I, PC and a stack entry (R7). -/
abbrev Word := BitVec 16

/-- `zext_16(nnn)` of a 12-bit immediate (R10, R73). -/
abbrev Imm12.toWord (a : Imm12) : Word := a.setWidth 16

/-- `zext_16` of a byte (R10). -/
abbrev Byte.toWord (b : Byte) : Word := b.setWidth 16

end Sys2Proof
end

