-- ==== Sys2Proof/Syntax.lean ====
section
/-! DEFINITION. The instructions (spec 30_encoding.md R83): one constructor per row of spec/opcode_table.json, 34
instructions and the four rows of the lenient no-op. An operand the spec says is encoded but not examined (bits 11..8 of
CLEAR and RETURN, R76; bits 3..0 of the register skips, R75; y of SHR and SHL, R149, R151; the twelve low bits of a
lenient no-op, R80) is kept as the last argument of its constructor, because a fatal error records the whole instruction
word (R31) and because an assembler writes those bits as given (R85). -/

namespace Sys2Proof

inductive Instr where
  /-- `00E0` CLEAR (R190); `z` is bits 11..8, not examined (R76). -/
  | clear (z : Nibble)
  /-- `00EE` RETURN (R120); `z` is bits 11..8, not examined (R76). -/
  | ret (z : Nibble)
  /-- `1nnn` JUMP (R121). -/
  | jump (nnn : Imm12)
  /-- `2nnn` CALL (R122). -/
  | call (nnn : Imm12)
  /-- `3xkk` SKIP-EQ-IMM (R123). -/
  | skipEqImm (x : Nibble) (kk : Byte)
  /-- `4xkk` SKIP-NE-IMM (R124). -/
  | skipNeImm (x : Nibble) (kk : Byte)
  /-- `5xyn` SKIP-EQ-REG (R125); `n` is bits 3..0, not examined (R75). -/
  | skipEqReg (x y n : Nibble)
  /-- `9xyn` SKIP-NE-REG (R126); `n` is bits 3..0, not examined (R75). -/
  | skipNeReg (x y n : Nibble)
  /-- `6xkk` LOAD-IMM (R141). -/
  | loadImm (x : Nibble) (kk : Byte)
  /-- `7xkk` ADD-IMM (R142). -/
  | addImm (x : Nibble) (kk : Byte)
  /-- `8xy0` LOAD (R143). -/
  | loadReg (x y : Nibble)
  /-- `8xy1` OR (R144). -/
  | orReg (x y : Nibble)
  /-- `8xy2` AND (R145). -/
  | andReg (x y : Nibble)
  /-- `8xy3` XOR (R146). -/
  | xorReg (x y : Nibble)
  /-- `8xy4` ADD (R147). -/
  | addReg (x y : Nibble)
  /-- `8xy5` SUB (R148). -/
  | subReg (x y : Nibble)
  /-- `8xy6` SHR (R149); `y` is encoded but not read. -/
  | shr (x y : Nibble)
  /-- `8xy7` SUBN (R150). -/
  | subnReg (x y : Nibble)
  /-- `8xyE` SHL (R151); `y` is encoded but not read. -/
  | shl (x y : Nibble)
  /-- `Annn` LOAD-I (R170). -/
  | loadI (nnn : Imm12)
  /-- `Bnnn` JUMP-OFFSET (R127). -/
  | jumpOffset (nnn : Imm12)
  /-- `Cxkk` RANDOM (R152). -/
  | random (x : Nibble) (kk : Byte)
  /-- `Dxyn` DRAW (R191). -/
  | draw (x y n : Nibble)
  /-- `Ex9E` SKIP-KEY-PRESSED (R210). -/
  | skipKeyPressed (x : Nibble)
  /-- `ExA1` SKIP-KEY-NOT-PRESSED (R211). -/
  | skipKeyNotPressed (x : Nibble)
  /-- `Fx07` GET-DELAY (R212). -/
  | getDelay (x : Nibble)
  /-- `Fx15` SET-DELAY (R213). -/
  | setDelay (x : Nibble)
  /-- `Fx18` SET-SOUND (R214). -/
  | setSound (x : Nibble)
  /-- `Fx1E` ADD-TO-I (R171). -/
  | addToI (x : Nibble)
  /-- `Fx29` LOAD-FONT-ADDR (R172). -/
  | loadFontAddr (x : Nibble)
  /-- `Fx33` STORE-BCD (R173). -/
  | storeBcd (x : Nibble)
  /-- `Fx55` STORE-REGS (R174). -/
  | storeRegs (x : Nibble)
  /-- `Fx65` LOAD-REGS (R175). -/
  | loadRegs (x : Nibble)
  /-- `Fx0A` WAIT-KEY (R215). -/
  | waitKey (x : Nibble)
  /-- NOP-LENIENT of family 0x0 (R80); `low` is bits 11..0. -/
  | nopLenient0 (low : Imm12)
  /-- NOP-LENIENT of family 0x8 (R80); `low` is bits 11..0. -/
  | nopLenient8 (low : Imm12)
  /-- NOP-LENIENT of family 0xE (R80); `low` is bits 11..0. -/
  | nopLenientE (low : Imm12)
  /-- NOP-LENIENT of family 0xF (R80); `low` is bits 11..0. -/
  | nopLenientF (low : Imm12)
  deriving DecidableEq, Repr, Inhabited

/-- The instruction is one of the four rows of the lenient no-op (R80). -/
def Instr.isLenient : Instr → Bool
  | .nopLenient0 _ | .nopLenient8 _ | .nopLenientE _ | .nopLenientF _ => true
  | .clear _ | .ret _ | .jump _ | .call _ | .skipEqImm _ _ | .skipNeImm _ _ | .skipEqReg _ _ _ | .skipNeReg _ _ _
  | .loadImm _ _ | .addImm _ _ | .loadReg _ _ | .orReg _ _ | .andReg _ _ | .xorReg _ _ | .addReg _ _ | .subReg _ _
  | .shr _ _ | .subnReg _ _ | .shl _ _ | .loadI _ | .jumpOffset _ | .random _ _ | .draw _ _ _ | .skipKeyPressed _
  | .skipKeyNotPressed _ | .getDelay _ | .setDelay _ | .setSound _ | .addToI _ | .loadFontAddr _ | .storeBcd _
  | .storeRegs _ | .loadRegs _ | .waitKey _ => false

end Sys2Proof
end

