-- ==== Sys2Proof/WellFormed.lean ====
section
/-! DEFINITION. Well-formed instructions: the terms of Instr that some instruction word stands for. Every operand is a
bit field of its own width, so the only condition is on a lenient no-op, whose word must not select an instruction of its
family (spec 30_encoding.md R76 to R80). -/

namespace Sys2Proof

/-- The low bytes that select an instruction of family 0x0 (R76). -/
def family0Low : List Byte := [0xE0, 0xEE]

/-- The low nibbles that select an instruction of family 0x8 (R77). -/
def family8Low : List Nibble := [0x0, 0x1, 0x2, 0x3, 0x4, 0x5, 0x6, 0x7, 0xE]

/-- The low bytes that select an instruction of family 0xE (R78). -/
def familyELow : List Byte := [0x9E, 0xA1]

/-- The low bytes that select an instruction of family 0xF (R79). -/
def familyFLow : List Byte := [0x07, 0x0A, 0x15, 0x18, 0x1E, 0x29, 0x33, 0x55, 0x65]

/-- Some instruction word stands for `i`. -/
def Instr.wf : Instr → Bool
  | .nopLenient0 low => low.setWidth 8 ∉ family0Low
  | .nopLenient8 low => low.setWidth 4 ∉ family8Low
  | .nopLenientE low => low.setWidth 8 ∉ familyELow
  | .nopLenientF low => low.setWidth 8 ∉ familyFLow
  | .clear _ | .ret _ | .jump _ | .call _ | .skipEqImm _ _ | .skipNeImm _ _ | .skipEqReg _ _ _ | .skipNeReg _ _ _
  | .loadImm _ _ | .addImm _ _ | .loadReg _ _ | .orReg _ _ | .andReg _ _ | .xorReg _ _ | .addReg _ _ | .subReg _ _
  | .shr _ _ | .subnReg _ _ | .shl _ _ | .loadI _ | .jumpOffset _ | .random _ _ | .draw _ _ _ | .skipKeyPressed _
  | .skipKeyNotPressed _ | .getDelay _ | .setDelay _ | .setSound _ | .addToI _ | .loadFontAddr _ | .storeBcd _
  | .storeRegs _ | .loadRegs _ | .waitKey _ => true

end Sys2Proof
end

