-- ==== Sys2Proof/Decode.lean ====
section
/-! DEFINITION. Decoding, by the two-level dispatch of spec 30_encoding.md R74 to R80, and after it the encoder, from the
formats of R71 and the opcode map of R83. Every 16-bit word decodes (R82); a byte sequence is rejected, by name, only
where it holds fewer than the two bytes of an instruction. -/

namespace Sys2Proof

/-! ### Fields of the instruction word (R72) -/

/-- `w[15:12]`, the family. -/
def opField (w : Word) : Nibble := w.extractLsb' 12 4
/-- `x = w[11:8]`. -/
def xField (w : Word) : Nibble := w.extractLsb' 8 4
/-- `y = w[7:4]`. -/
def yField (w : Word) : Nibble := w.extractLsb' 4 4
/-- `n = w[3:0]`. -/
def nField (w : Word) : Nibble := w.extractLsb' 0 4
/-- `kk = w[7:0]`. -/
def kkField (w : Word) : Byte := w.extractLsb' 0 8
/-- `nnn = w[11:0]`. -/
def nnnField (w : Word) : Imm12 := w.extractLsb' 0 12

/-! ### Second-level dispatch -/

/-- Family 0x0, on the low byte; bits 11..8 are not examined (R76). -/
def decodeFamily0 (w : Word) : Instr :=
  match kkField w with
  | 0xE0#8 => .clear (xField w)
  | 0xEE#8 => .ret (xField w)
  | _      => .nopLenient0 (nnnField w)

/-- Family 0x8, on the low nibble (R77); its values are the spec's general knowledge (PRESUMED, unsafe, log entry 11). -/
def decodeFamily8 (w : Word) : Instr :=
  match nField w with
  | 0x0#4 => .loadReg (xField w) (yField w)
  | 0x1#4 => .orReg (xField w) (yField w)
  | 0x2#4 => .andReg (xField w) (yField w)
  | 0x3#4 => .xorReg (xField w) (yField w)
  | 0x4#4 => .addReg (xField w) (yField w)
  | 0x5#4 => .subReg (xField w) (yField w)
  | 0x6#4 => .shr (xField w) (yField w)
  | 0x7#4 => .subnReg (xField w) (yField w)
  | 0xE#4 => .shl (xField w) (yField w)
  | _     => .nopLenient8 (nnnField w)

/-- Family 0xE, on the low byte (R78). -/
def decodeFamilyE (w : Word) : Instr :=
  match kkField w with
  | 0x9E#8 => .skipKeyPressed (xField w)
  | 0xA1#8 => .skipKeyNotPressed (xField w)
  | _      => .nopLenientE (nnnField w)

/-- Family 0xF, on the low byte (R79). -/
def decodeFamilyF (w : Word) : Instr :=
  match kkField w with
  | 0x07#8 => .getDelay (xField w)
  | 0x0A#8 => .waitKey (xField w)
  | 0x15#8 => .setDelay (xField w)
  | 0x18#8 => .setSound (xField w)
  | 0x1E#8 => .addToI (xField w)
  | 0x29#8 => .loadFontAddr (xField w)
  | 0x33#8 => .storeBcd (xField w)
  | 0x55#8 => .storeRegs (xField w)
  | 0x65#8 => .loadRegs (xField w)
  | _      => .nopLenientF (nnnField w)

/-- First-level dispatch on the top nibble (R74, R75). The last arm is family 0xF: a nibble has sixteen values. -/
def decodeWord (w : Word) : Instr :=
  match opField w with
  | 0x0#4 => decodeFamily0 w
  | 0x1#4 => .jump (nnnField w)
  | 0x2#4 => .call (nnnField w)
  | 0x3#4 => .skipEqImm (xField w) (kkField w)
  | 0x4#4 => .skipNeImm (xField w) (kkField w)
  | 0x5#4 => .skipEqReg (xField w) (yField w) (nField w)
  | 0x6#4 => .loadImm (xField w) (kkField w)
  | 0x7#4 => .addImm (xField w) (kkField w)
  | 0x8#4 => decodeFamily8 w
  | 0x9#4 => .skipNeReg (xField w) (yField w) (nField w)
  | 0xA#4 => .loadI (nnnField w)
  | 0xB#4 => .jumpOffset (nnnField w)
  | 0xC#4 => .random (xField w) (kkField w)
  | 0xD#4 => .draw (xField w) (yField w) (nField w)
  | 0xE#4 => decodeFamilyE w
  | _     => decodeFamilyF w

/-- Why a byte sequence is not an instruction. The two-byte word is the only length (R70) and every word decodes (R82), so
the one reason is that the sequence is too short. -/
inductive DecodeError where
  | truncated
  deriving DecidableEq, Repr

/-- The instruction word of two consecutive bytes, big-endian (R54): the first byte is `w[15:8]`. -/
def wordOfBytes (hi lo : Byte) : Word := hi ++ lo

/-- Decode the first instruction of a byte sequence and return the rest of it. -/
def decode : List Byte → Except DecodeError (Instr × List Byte)
  | hi :: lo :: rest => .ok (decodeWord (wordOfBytes hi lo), rest)
  | [_] | []         => .error .truncated

/-! ### The encoder (R71, R83) -/

/-- The instruction word of `i`, its nibbles and immediates concatenated from bit 15 down. -/
def encode : Instr → Word
  | .clear z             => 0x0#4 ++ z ++ 0xE0#8
  | .ret z               => 0x0#4 ++ z ++ 0xEE#8
  | .jump nnn            => 0x1#4 ++ nnn
  | .call nnn            => 0x2#4 ++ nnn
  | .skipEqImm x kk      => 0x3#4 ++ x ++ kk
  | .skipNeImm x kk      => 0x4#4 ++ x ++ kk
  | .skipEqReg x y n     => 0x5#4 ++ x ++ y ++ n
  | .skipNeReg x y n     => 0x9#4 ++ x ++ y ++ n
  | .loadImm x kk        => 0x6#4 ++ x ++ kk
  | .addImm x kk         => 0x7#4 ++ x ++ kk
  | .loadReg x y         => 0x8#4 ++ x ++ y ++ 0x0#4
  | .orReg x y           => 0x8#4 ++ x ++ y ++ 0x1#4
  | .andReg x y          => 0x8#4 ++ x ++ y ++ 0x2#4
  | .xorReg x y          => 0x8#4 ++ x ++ y ++ 0x3#4
  | .addReg x y          => 0x8#4 ++ x ++ y ++ 0x4#4
  | .subReg x y          => 0x8#4 ++ x ++ y ++ 0x5#4
  | .shr x y             => 0x8#4 ++ x ++ y ++ 0x6#4
  | .subnReg x y         => 0x8#4 ++ x ++ y ++ 0x7#4
  | .shl x y             => 0x8#4 ++ x ++ y ++ 0xE#4
  | .loadI nnn           => 0xA#4 ++ nnn
  | .jumpOffset nnn      => 0xB#4 ++ nnn
  | .random x kk         => 0xC#4 ++ x ++ kk
  | .draw x y n          => 0xD#4 ++ x ++ y ++ n
  | .skipKeyPressed x    => 0xE#4 ++ x ++ 0x9E#8
  | .skipKeyNotPressed x => 0xE#4 ++ x ++ 0xA1#8
  | .getDelay x          => 0xF#4 ++ x ++ 0x07#8
  | .setDelay x          => 0xF#4 ++ x ++ 0x15#8
  | .setSound x          => 0xF#4 ++ x ++ 0x18#8
  | .addToI x            => 0xF#4 ++ x ++ 0x1E#8
  | .loadFontAddr x      => 0xF#4 ++ x ++ 0x29#8
  | .storeBcd x          => 0xF#4 ++ x ++ 0x33#8
  | .storeRegs x         => 0xF#4 ++ x ++ 0x55#8
  | .loadRegs x          => 0xF#4 ++ x ++ 0x65#8
  | .waitKey x           => 0xF#4 ++ x ++ 0x0A#8
  | .nopLenient0 low     => 0x0#4 ++ low
  | .nopLenient8 low     => 0x8#4 ++ low
  | .nopLenientE low     => 0xE#4 ++ low
  | .nopLenientF low     => 0xF#4 ++ low

/-- The high byte of an instruction word, stored at the lower address (R54). -/
def hiByte (w : Word) : Byte := w.extractLsb' 8 8
/-- The low byte of an instruction word, stored at the higher address (R54). -/
def loByte (w : Word) : Byte := w.extractLsb' 0 8

/-- The two bytes of an instruction word as memory holds them (R54). -/
def bytesOfWord (w : Word) : List Byte := [hiByte w, loByte w]

/-- The bytes of `i` as memory holds them. -/
def encodeBytes (i : Instr) : List Byte := bytesOfWord (encode i)

/-! ### The opcode map (R83) -/

/-- The `match` and `mask` columns of R83 for the row of an instruction, in the order of the constructors. -/
def opcodeRow : Instr → Word × Word
  | .clear _             => (0x00E0, 0xF0FF)
  | .ret _               => (0x00EE, 0xF0FF)
  | .jump _              => (0x1000, 0xF000)
  | .call _              => (0x2000, 0xF000)
  | .skipEqImm _ _       => (0x3000, 0xF000)
  | .skipNeImm _ _       => (0x4000, 0xF000)
  | .skipEqReg _ _ _     => (0x5000, 0xF000)
  | .skipNeReg _ _ _     => (0x9000, 0xF000)
  | .loadImm _ _         => (0x6000, 0xF000)
  | .addImm _ _          => (0x7000, 0xF000)
  | .loadReg _ _         => (0x8000, 0xF00F)
  | .orReg _ _           => (0x8001, 0xF00F)
  | .andReg _ _          => (0x8002, 0xF00F)
  | .xorReg _ _          => (0x8003, 0xF00F)
  | .addReg _ _          => (0x8004, 0xF00F)
  | .subReg _ _          => (0x8005, 0xF00F)
  | .shr _ _             => (0x8006, 0xF00F)
  | .subnReg _ _         => (0x8007, 0xF00F)
  | .shl _ _             => (0x800E, 0xF00F)
  | .loadI _             => (0xA000, 0xF000)
  | .jumpOffset _        => (0xB000, 0xF000)
  | .random _ _          => (0xC000, 0xF000)
  | .draw _ _ _          => (0xD000, 0xF000)
  | .skipKeyPressed _    => (0xE09E, 0xF0FF)
  | .skipKeyNotPressed _ => (0xE0A1, 0xF0FF)
  | .getDelay _          => (0xF007, 0xF0FF)
  | .setDelay _          => (0xF015, 0xF0FF)
  | .setSound _          => (0xF018, 0xF0FF)
  | .addToI _            => (0xF01E, 0xF0FF)
  | .loadFontAddr _      => (0xF029, 0xF0FF)
  | .storeBcd _          => (0xF033, 0xF0FF)
  | .storeRegs _         => (0xF055, 0xF0FF)
  | .loadRegs _          => (0xF065, 0xF0FF)
  | .waitKey _           => (0xF00A, 0xF0FF)
  | .nopLenient0 _       => (0x0000, 0xF000)
  | .nopLenient8 _       => (0x8000, 0xF000)
  | .nopLenientE _       => (0xE000, 0xF000)
  | .nopLenientF _       => (0xF000, 0xF000)

/-- `match` and `mask` of the 34 instruction rows of R83, the lenient rows left out. -/
def instructionRows : List (Word × Word) :=
  [(0x00E0, 0xF0FF), (0x00EE, 0xF0FF), (0x1000, 0xF000), (0x2000, 0xF000), (0x3000, 0xF000), (0x4000, 0xF000),
   (0x5000, 0xF000), (0x9000, 0xF000), (0x6000, 0xF000), (0x7000, 0xF000), (0x8000, 0xF00F), (0x8001, 0xF00F),
   (0x8002, 0xF00F), (0x8003, 0xF00F), (0x8004, 0xF00F), (0x8005, 0xF00F), (0x8006, 0xF00F), (0x8007, 0xF00F),
   (0x800E, 0xF00F)] ++
  [(0xA000, 0xF000), (0xB000, 0xF000), (0xC000, 0xF000), (0xD000, 0xF000), (0xE09E, 0xF0FF), (0xE0A1, 0xF0FF),
   (0xF007, 0xF0FF), (0xF015, 0xF0FF), (0xF018, 0xF0FF), (0xF01E, 0xF0FF), (0xF029, 0xF0FF), (0xF033, 0xF0FF),
   (0xF055, 0xF0FF), (0xF065, 0xF0FF), (0xF00A, 0xF0FF)]

/-! ### The host's view of one table row -/

/-- The instruction the decoder reads from an instruction word whose bits are `w`, numbered as spec/opcode_table.json
numbers them: bit 0 is the least significant bit of the one 16-bit word. Bits from `nbits` up are zero. The word is laid
out as memory holds it, the high byte first, and given to the decoder. -/
def decodeTableWord (nbits w : Nat) : Option Instr :=
  if nbits ≤ 16 ∧ w < 2 ^ nbits then
    match decode (bytesOfWord (BitVec.ofNat 16 w)) with
    | .ok (i, _) => some i
    | .error _   => none
  else none

end Sys2Proof
end

