-- ==== Sys2Proof/Config.lean ====
section
/-! DEFINITION. The open parameters and the free draws of the engine (spec 00_scope.md R8). A configuration is one
record, which State carries unchanged so that a statement about every state is a statement about every configuration.
The constants with no body are free values: nothing in Lean can evaluate them. -/

namespace Sys2Proof

/-- `VF_ORDER` (R8, R140): which of the two writes of ADD, SUB, SHR, SUBN, SHL survives when x = F. -/
inductive VfOrder where
  | flagLast
  | resultLast
  deriving DecidableEq, Repr, Inhabited

/-- `TIMER_SOURCE` (R8, R242): whether the timers decay after each completed instruction or on the host's TICK. -/
inductive TimerSource where
  | perInstruction
  | externalTick
  deriving DecidableEq, Repr, Inhabited

/-- `FONT` (R8, R34): 80 bytes, glyph d at offset 5·d. -/
abbrev Font := Vector Byte 80

/-- The configuration of one block: fixed while it runs, changed by no step, tick, register write or reset (R8, R36). -/
structure Config where
  vfOrder     : VfOrder
  timerSource : TimerSource
  font        : Font
  deriving DecidableEq, Repr

/-- The default `FONT` of R34, glyphs 0 to F in order: the spec's general knowledge (PRESUMED, unsafe, log entry 5). -/
def Config.defaultFont : Font :=
  #v[0xF0, 0x90, 0x90, 0x90, 0xF0,  0x20, 0x60, 0x20, 0x20, 0x70,
     0xF0, 0x10, 0xF0, 0x80, 0xF0,  0xF0, 0x10, 0xF0, 0x10, 0xF0,
     0x90, 0x90, 0xF0, 0x10, 0x10,  0xF0, 0x80, 0xF0, 0x10, 0xF0,
     0xF0, 0x80, 0xF0, 0x90, 0xF0,  0xF0, 0x10, 0x20, 0x40, 0x40,
     0xF0, 0x90, 0xF0, 0x90, 0xF0,  0xF0, 0x90, 0xF0, 0x10, 0xF0,
     0xF0, 0x90, 0xF0, 0x90, 0x90,  0xE0, 0x90, 0xE0, 0x90, 0xE0,
     0xF0, 0x80, 0x80, 0x80, 0xF0,  0xE0, 0x90, 0x90, 0x90, 0xE0,
     0xF0, 0x80, 0xF0, 0x80, 0xF0,  0xF0, 0x80, 0xF0, 0x80, 0x80]

/-- FREE VALUE: the `VF_ORDER` of the machine after reset; the spec leaves it open (R8, decision D1). Log entry 1. -/
opaque Config.freeVfOrder : VfOrder

/-- FREE VALUE: the n-th byte the host puts on the `RAND` input (R8, R152, R252, decision D22). Log entry 2. -/
opaque Config.freeRand : Nat → Byte

/-- FREE VALUE: the n-th value the host puts on the `KEY_CHOICE` input (R8, R107, decision D8). Log entry 3. -/
opaque Config.freeKeyChoice : Nat → Nibble

/-- The configuration after reset: `TIMER_SOURCE` and `FONT` at the spec's defaults (R8, R34, R242), `VF_ORDER` free.
DESIGN CHOICE, DEDUCED and PRESUMED, log entries 1, 4 and 5. -/
def Config.atReset : Config where
  vfOrder     := Config.freeVfOrder
  timerSource := .perInstruction
  font        := Config.defaultFont

/-- `MEM_SIZE` (R7, R50): addresses 0x000 to 0xFFF. -/
abbrev Config.memSize : Nat := 4096

/-- `PROG_BASE` (R7, R281): where a program image is placed, and the PC after reset. -/
abbrev Config.progBase : Nat := 0x200

/-- `PROG_MAX` (R7, R284): the longest program image, in bytes. -/
abbrev Config.progMax : Nat := 0xE00

/-- `STACK_DEPTH` (R7, R25). -/
abbrev Config.stackDepth : Nat := 16

end Sys2Proof
end

