-- ==== Sys2Proof/Machine/State.lean ====
section
/-! DEFINITION. The state of the engine (spec 10_state.md R20 to R37), its memory as a canonical list of cells, the causes
of a fatal error, the reasons a step can stop, and the state right after reset (R35, R280). -/

namespace Sys2Proof.Machine

/-- `MODE` (R30): a run state, not a privilege (R237). -/
inductive Mode where
  | running
  /-- A WAIT-KEY with target register `t` is suspended. -/
  | awaitingKey (t : Nibble)
  | halted
  deriving DecidableEq, Repr

/-- The causes of a fatal error (R231); their codes are `FatalCause.code`. -/
inductive FatalCause where
  | stackOverflow
  | stackUnderflow
  | pcOutOfBounds
  | memOutOfBounds
  | keyIndexOutOfRange
  deriving DecidableEq, Repr

/-- A row of 64 pixels by column. -/
abbrev PixelRow := Vector Bool 64

/-- The framebuffer (R27): 32 rows of 64 one-bit pixels, row-major; `true` is a pixel that is on. -/
abbrev Framebuffer := Vector PixelRow 32

/-- Memory (R33, R50): the bytes that differ from the reset contents, at strictly rising addresses (DESIGN CHOICE, safe, log
entry 8). -/
abbrev Memory := List Host.Cell

/-- What an unlisted address reads as: the reset contents, `FONT` at 0x000..0x04F and zero above it (R35, R51). -/
def Memory.unlisted (font : Font) (a : Nat) : Byte := font[a]?.getD 0

/-- The canonical form: addresses strictly rising, inside the address space, and no entry equal to what an unlisted
address reads as. -/
abbrev Memory.wf (font : Font) (m : Memory) : Prop :=
  m.Pairwise (fun c d => c.1 < d.1) ∧ ∀ c ∈ m, c.1 < Config.memSize ∧ c.2 ≠ Memory.unlisted font c.1

/-- The machine (R20). The last five fields are not the block's state but what the host presents to it: the key vector
(R29), the configuration (R8) and the two draws with their counter (log entries 2, 3 and 6). -/
structure State where
  /-- `V[0..15]` (R21). -/
  v            : Vector Byte 16
  /-- `I` (R23). -/
  i            : Word
  /-- `PC` (R24). -/
  pc           : Word
  /-- `STACK[0..15]` (R25). -/
  stack        : Vector Word 16
  /-- `SP`, 0 to 16 (R25). -/
  sp           : Fin 17
  /-- `DT` (R26). -/
  dt           : Byte
  /-- `ST` (R26). -/
  st           : Byte
  /-- `MEM` (R33). -/
  mem          : Memory
  /-- `FB` (R27). -/
  fb           : Framebuffer
  /-- `REDRAW` (R28). -/
  redraw       : Bool
  /-- `MODE` (R30). -/
  mode         : Mode
  /-- `FAULT_CAUSE` (R31), `none` for code 0. -/
  faultCause   : Option FatalCause
  /-- `FAULT_PC` (R31). -/
  faultPc      : Word
  /-- `FAULT_INSTR` (R31). -/
  faultInstr   : Word
  /-- `LENIENT_COUNT` (R32). -/
  lenientCount : BitVec 32
  /-- The key-state input, bit k = `KEY[k]` (R29, R251): the host's, never written by a step. -/
  keys         : BitVec 16
  /-- `VF_ORDER`, `TIMER_SOURCE`, `FONT` (R8, R36): never written. -/
  cfg          : Config
  /-- The byte on the `RAND` input that the next RANDOM samples (R252, R260). -/
  rand         : Byte
  /-- The value on the `KEY_CHOICE` input that the next captured key samples (R260). -/
  keyChoice    : Nibble
  /-- The model's own counter of draws taken: the argument of the next free value (log entry 2). -/
  drawn        : Nat
  deriving DecidableEq, Repr

/-- Why the machine stops. Safe: no state is claimed after it. -/
inductive Fault where
  /-- Raised by `step` alone, on a step in Halted mode: a fatal error has occurred and only reset leaves that mode (R108,
  R232, R233); the spec says that a model treats the Halted state as a fault. Safe (log entry 7). -/
  | halted
  deriving DecidableEq, Repr

/-- What the model gives no meaning to. -/
inductive Refusal where
  /-- Raised by `exec` alone, for an instruction that has no meaning yet (none is left). Safe. -/
  | notModelled (mnemonic : String)
  /-- Raised by `launch` alone: an image longer than `PROG_MAX` has no launch state (R284). Safe. -/
  | imageTooLong
  deriving DecidableEq, Repr

/-- What a meaning answers. -/
abbrev Result := Host.Outcome State Fault Refusal

/-- The `outcome` output of a step (R106, R109). -/
inductive StepOutcome where
  | completed
  | blocked
  | faulted
  | halted
  deriving DecidableEq, Repr

/-- A step with its two outputs (R106): `outcome`, and `sound_edge`, which is an event and not stored state (R36). -/
structure StepResult where
  state     : State
  outcome   : StepOutcome
  soundEdge : Bool
  deriving DecidableEq, Repr

/-- The machine right after reset (R35, R280). The spec gives every value but those of the inputs: no key is pressed (DESIGN
CHOICE, unsafe, log entry 6), the configuration is `Config.atReset`, and the draws are free. -/
def State.reset : State where
  v            := Vector.replicate 16 0
  i            := 0
  pc           := 0x0200
  stack        := Vector.replicate 16 0
  sp           := 0
  dt           := 0
  st           := 0
  mem          := []
  fb           := Vector.replicate 32 (Vector.replicate 64 false)
  redraw       := true
  mode         := .running
  faultCause   := none
  faultPc      := 0
  faultInstr   := 0
  lenientCount := 0
  keys         := 0
  cfg          := Config.atReset
  rand         := Config.freeRand 0
  keyChoice    := Config.freeKeyChoice 0
  drawn        := 1

end Sys2Proof.Machine
end

