-- ==== Sys2Proof/Machine/Ops.lean ====
section
/-! DEFINITION. The named operations over the state: registers, memory, the stack, the framebuffer, the draws, timer
decay, the program counter, entering a fatal error, and reset. -/

namespace Sys2Proof.Machine

/-! ### Memory (20_memory.md) -/

/-- The byte at an address: the listed one, else the reset contents. -/
def Memory.read (font : Font) : Memory → Nat → Byte
  | [], a            => Memory.unlisted font a
  | (k, b) :: m, a   => if k = a then b else Memory.read font m a

/-- List a byte at an address, in address order. -/
def Memory.insert (a : Nat) (b : Byte) : Memory → Memory
  | []           => [(a, b)]
  | (k, c) :: m  =>
    if a < k then (a, b) :: (k, c) :: m
    else if a = k then (a, b) :: m
    else (k, c) :: Memory.insert a b m

/-- Unlist an address. -/
def Memory.erase (a : Nat) (m : Memory) : Memory := m.filter (fun c => c.1 ≠ a)

/-- Write one byte (R57: it changes only the addressed byte), keeping the canonical form. -/
def Memory.write (font : Font) (m : Memory) (a : Nat) (b : Byte) : Memory :=
  if b = Memory.unlisted font a then Memory.erase a m else Memory.insert a b m

/-- Write bytes at consecutive addresses, the first at `a`, in rising order. -/
def Memory.writeBytes (font : Font) (m : Memory) (a : Nat) : List Byte → Memory
  | []      => m
  | b :: bs => Memory.writeBytes font (m.write font a b) (a + 1) bs

/-- `MemRead(a, 1)` (R11). Every use stands behind `inMemory`, so `a` is a valid address. -/
def State.readByte (s : State) (a : Nat) : Byte := s.mem.read s.cfg.font a

/-- `MemRead` of `n` consecutive bytes from `a`. -/
def State.readBytes (s : State) (a n : Nat) : List Byte := (List.range n).map (fun j => s.readByte (a + j))

/-- `MemWrite` of consecutive bytes, the first at `a`. Every use stands behind `inMemory` or a bound of its own. -/
def State.writeBytes (s : State) (a : Nat) (bs : List Byte) : State :=
  { s with mem := s.mem.writeBytes s.cfg.font a bs }

/-- The range `a .. a + count - 1`, on exact integers, lies inside 0x000..0xFFF (R53); an empty range does. -/
def inMemory (a count : Nat) : Bool := count = 0 || a + count ≤ Config.memSize

/-! ### Registers -/

/-- `V[r]` (R11, R21). -/
def State.getV (s : State) (r : Nibble) : Byte := s.v[r.toNat]'r.isLt

/-- `V[r] <- b` (R11, R21): no register is hard-wired. -/
def State.setV (s : State) (r : Nibble) (b : Byte) : State := { s with v := s.v.set r.toNat b r.isLt }

/-- All sixteen registers at once (R175). -/
def State.setRegs (s : State) (v : Vector Byte 16) : State := { s with v := v }

/-- The index of `VF` (R11, R22). -/
abbrev flagReg : Nibble := 0xF

/-- `I <- w` (R23). -/
def State.setI (s : State) (w : Word) : State := { s with i := w }

/-- `DT <- b` (R26). -/
def State.setDt (s : State) (b : Byte) : State := { s with dt := b }

/-- `ST <- b` (R26). -/
def State.setSt (s : State) (b : Byte) : State := { s with st := b }

/-! ### The program counter (R24, R110) -/

/-- `PC <- target`. Targets are not checked when PC is written (R128). -/
def State.goto (s : State) (target : Word) : State := { s with pc := target }

/-- `PC <- trunc_16(PC + 2)`. -/
def State.advance (s : State) : State := s.goto (s.pc + 2)

/-- A skip (R123): `PC + 4` if the condition holds, else `PC + 2`. -/
def State.skipIf (s : State) (c : Bool) : State := s.goto (if c then s.pc + 4 else s.pc + 2)

/-! ### The return stack (R25) -/

/-- `STACK[SP] <- w; SP <- SP + 1`, where SP is below 16. -/
def State.push (s : State) (w : Word) (h : s.sp.val < 16) : State :=
  { s with stack := s.stack.set s.sp.val w h, sp := ⟨s.sp.val + 1, Nat.succ_lt_succ h⟩ }

/-- The index of the top entry, where SP is above 0. -/
theorem State.top_lt (s : State) (h : 0 < s.sp.val) : s.sp.val - 1 < 16 := by have := s.sp.isLt; omega

/-- `STACK[SP - 1]`, where SP is above 0. -/
def State.top (s : State) (h : 0 < s.sp.val) : Word := s.stack[s.sp.val - 1]'(s.top_lt h)

/-- `SP <- SP - 1`; the popped entry keeps its value. -/
def State.drop (s : State) : State := { s with sp := ⟨s.sp.val - 1, by have := s.sp.isLt; omega⟩ }

/-! ### The framebuffer (R27) -/

/-- `FB(cx, cy)` of a framebuffer. -/
def Framebuffer.get (f : Framebuffer) (cx : Fin 64) (cy : Fin 32) : Bool := (f[cy.val]'cy.isLt)[cx.val]'cx.isLt

/-- `FB(cx, cy) <- b`. -/
def Framebuffer.put (f : Framebuffer) (cx : Fin 64) (cy : Fin 32) (b : Bool) : Framebuffer :=
  f.set cy.val ((f[cy.val]'cy.isLt).set cx.val b cx.isLt) cy.isLt

/-- The framebuffer with every pixel 0. -/
def Framebuffer.blank : Framebuffer := Vector.replicate 32 (Vector.replicate 64 false)

/-- `FB(cx, cy)` (R11). -/
def State.pixel (s : State) (cx : Fin 64) (cy : Fin 32) : Bool := s.fb.get cx cy

/-- Replace the framebuffer and mark redraw (R28: every CLEAR and every DRAW does). -/
def State.show (s : State) (f : Framebuffer) : State := { s with fb := f, redraw := true }

/-! ### Keys and draws -/

/-- `KEY[k]` (R29). -/
def State.key (s : State) (k : Nibble) : Bool := s.keys.getLsbD k.toNat

/-- The first pressed key at `c` or cyclically above it, `fuel` keys tried after `c`. -/
def pickFrom (keys : BitVec 16) : Nat → Nibble → Nibble
  | 0, c        => c
  | fuel + 1, c => if keys.getLsbD c.toNat then c else pickFrom keys fuel (c + 1)

/-- `draw KEY_CHOICE(P)` (R11, R107): the key the input names if it is pressed, else the next pressed key above it
cyclically. Every member of a non-empty P is drawn for some input, and nothing else is (DESIGN CHOICE,
log entry 3). -/
def pickKey (keys : BitVec 16) (c : Nibble) : Nibble := pickFrom keys 15 c

/-- The `RAND` input has been sampled: the next one is free. -/
def State.afterRand (s : State) : State := { s with rand := Config.freeRand s.drawn, drawn := s.drawn + 1 }

/-- The `KEY_CHOICE` input has been sampled: the next one is free. -/
def State.afterKeyChoice (s : State) : State :=
  { s with keyChoice := Config.freeKeyChoice s.drawn, drawn := s.drawn + 1 }

/-- `V[t] <- draw KEY_CHOICE(P)`, zero-extended (R106, R107, R215). -/
def State.captureKey (s : State) (t : Nibble) : State :=
  (s.setV t ((pickKey s.keys s.keyChoice).setWidth 8)).afterKeyChoice

/-- `MODE <- m` (R30). -/
def State.setMode (s : State) (m : Mode) : State := { s with mode := m }

/-! ### Timers (R240) -/

/-- One timer decremented toward zero. -/
def decTimer (b : Byte) : Byte := if b = 0 then 0 else b - 1

/-- `DecayTimers()`: the state after it and the sound edge it returns (R240, R241). -/
def State.decayTimers (s : State) : State × Bool :=
  ({ s with dt := decTimer s.dt, st := decTimer s.st }, s.st = 1)

/-! ### The lenient no-op (R80) -/

/-- `LENIENT_COUNT <- trunc_32(LENIENT_COUNT + 1)` (R32). -/
def State.countLenient (s : State) : State := { s with lenientCount := s.lenientCount + 1 }

/-! ### Fatal errors (60_exceptions.md) -/

/-- The code of a cause in `FAULT_CAUSE`, 0 for no fault (R231). -/
def FatalCause.code : Option FatalCause → Byte
  | none                      => 0
  | some .stackOverflow       => 1
  | some .stackUnderflow      => 2
  | some .pcOutOfBounds       => 3
  | some .memOutOfBounds      => 4
  | some .keyIndexOutOfRange  => 5

/-- `EnterFatal(c, pc, w)` (R232): the fault record is written and MODE becomes Halted, and nothing else changes. -/
def State.enterFatal (s : State) (c : FatalCause) (pc w : Word) : State :=
  { s with faultCause := some c, faultPc := pc, faultInstr := w, mode := .halted }

/-- `raise Fatal(c)` in the handler of `i` (R11, R104, R106): no write of the instruction has happened, and the fatal error
is entered with its address and its word. There is no return from it (R233). -/
def raise (c : FatalCause) (i : Instr) (s : State) : Result := .next (s.enterFatal c s.pc (encode i))

/-! ### Fetch (R102) -/

/-- The two bytes of an instruction at PC lie in memory: not `PC + 1 > 0xFFF`, on exact integers. -/
def State.canFetch (s : State) : Bool := s.pc.toNat + 1 ≤ 0xFFF

/-- `{MemRead(PC, 1), MemRead(PC + 1, 1)}` (R54, R102). -/
def State.fetchWord (s : State) : Word := wordOfBytes (s.readByte s.pc.toNat) (s.readByte (s.pc.toNat + 1))

/-! ### Reset (R280) -/

/-- A `RESET` strobe, from any mode (R282). KEY is the host's and is not changed; the configuration and the draws are not
state of the block (R36). -/
def State.strobeReset (s : State) : State :=
  { s with
    v := Vector.replicate 16 0, i := 0, sp := 0, stack := Vector.replicate 16 0, dt := 0, st := 0, mem := [],
    pc := 0x0200, fb := Framebuffer.blank, redraw := true, mode := .running, faultCause := none, faultPc := 0,
    faultInstr := 0, lenientCount := 0 }

/-! ### Placing an instruction where the next step fetches it -/

/-- The address the next step fetches at, once it is made able to fetch: PC where two bytes lie there, else 0x200. -/
def State.fetchAddr (s : State) : Word := if s.canFetch then s.pc else 0x0200

/-- `s` with the bytes of `w` where the next step fetches, and everything that step needs to fetch them: Running mode, and
a PC at which two bytes lie in memory. -/
def State.placeWord (s : State) (w : Word) : State :=
  { (s.goto s.fetchAddr).writeBytes s.fetchAddr.toNat (bytesOfWord w) with mode := .running }

end Sys2Proof.Machine
end

