-- ==== Sys2Proof/Machine/Operands.lean ====
section
/-! DEFINITION. The operand forms (spec 30_encoding.md R71 to R73, 43_index_memory.md R176): what an instruction reads
through its fields before any of its writes (R12), and the addresses it reaches through I. -/

namespace Sys2Proof.Machine

/-- A jump target or an index value from nnn, zero-extended (R73). -/
def immAddr (nnn : Imm12) : Word := nnn.toWord

/-- The target of JUMP-OFFSET: nnn plus V0, always V0 (R127). -/
def offsetTarget (nnn : Imm12) (s : State) : Word := nnn.toWord + (s.getV 0).toWord

/-- The address of a glyph, `zext_16(V[x]) * 5`, not masked to a digit (R172). -/
def fontAddr (x : Nibble) (s : State) : Word := (s.getV x).toWord * 5

/-- The first address of a transfer through I, on exact integers (R53, R176). -/
def indexAddr (s : State) : Nat := s.i.toNat

/-- How many registers STORE-REGS and LOAD-REGS move: V0 to Vx inclusive (R174, R175). -/
def regCount (x : Nibble) : Nat := x.toNat + 1

/-- V0 to Vx in order (R174). -/
def regBytes (x : Nibble) (s : State) : List Byte := (List.range (regCount x)).map (fun j => s.getV (BitVec.ofNat 4 j))

/-- The registers with V0 to Vx taken from memory at I (R175). -/
def loadedRegs (x : Nibble) (s : State) : Vector Byte 16 :=
  Vector.ofFn (fun j : Fin 16 => if j.val ≤ x.toNat then s.readByte (indexAddr s + j.val) else s.v[j.val])

/-- The three decimal digits of a byte, hundreds first (R173). -/
def bcdBytes (b : Byte) : List Byte := [b / 100, (b / 10) % 10, b % 10]

/-- The sprite rows of DRAW: `n` bytes from I (R191). -/
def spriteBytes (n : Nibble) (s : State) : List Byte := s.readBytes (indexAddr s) n.toNat

/-- The key index in Vx, if it names one of the sixteen keys (R210). -/
def keyIndex (x : Nibble) (s : State) : Option Nibble :=
  if (s.getV x).toNat ≤ 15 then some ((s.getV x).setWidth 4) else none

end Sys2Proof.Machine
end

