-- ==== Sys2Proof/Machine/ControlFlow.lean ====
section
/-! DEFINITION. Control flow (spec 41_control_flow.md R120 to R130). While a handler runs, PC is the address of its own
instruction (40_execution_cycle.md R112). -/

namespace Sys2Proof.Machine

/-- RETURN (R120): the popped call-site address plus 2. `z` is not examined (R76). -/
def execRet (z : Nibble) (s : State) : Result :=
  if h : 0 < s.sp.val then .next (s.drop.goto (s.top h + 2))
  else raise .stackUnderflow (.ret z) s

/-- JUMP (R121). -/
def execJump (nnn : Imm12) (s : State) : Result := .next (s.goto (immAddr nnn))

/-- CALL (R122): the call-site address is pushed, not the one after it. -/
def execCall (nnn : Imm12) (s : State) : Result :=
  if h : s.sp.val < 16 then .next ((s.push s.pc h).goto (immAddr nnn))
  else raise .stackOverflow (.call nnn) s

/-- SKIP-EQ-IMM (R123). -/
def execSkipEqImm (x : Nibble) (kk : Byte) (s : State) : Result := .next (s.skipIf (s.getV x = kk))

/-- SKIP-NE-IMM (R124). -/
def execSkipNeImm (x : Nibble) (kk : Byte) (s : State) : Result := .next (s.skipIf (s.getV x ≠ kk))

/-- SKIP-EQ-REG (R125); bits 3..0 are not examined (R75). -/
def execSkipEqReg (x y : Nibble) (s : State) : Result := .next (s.skipIf (s.getV x = s.getV y))

/-- SKIP-NE-REG (R126); bits 3..0 are not examined (R75). -/
def execSkipNeReg (x y : Nibble) (s : State) : Result := .next (s.skipIf (s.getV x ≠ s.getV y))

/-- JUMP-OFFSET (R127): the sum is not wrapped to 12 bits. -/
def execJumpOffset (nnn : Imm12) (s : State) : Result := .next (s.goto (offsetTarget nnn s))

end Sys2Proof.Machine
end

