-- ==== Sys2Proof/Machine/Flags.lean ====
section
/-! DEFINITION. The flag computations (spec 42_register_alu.md R140 to R153): VF is the only flag (10_state.md R37). -/

namespace Sys2Proof.Machine

/-- `bool(c)` as a register value (R10). -/
def flagByte (c : Bool) : Byte := if c then 1 else 0

/-- ADD: carry out of bit 7 (R147). -/
def addFlag (a b : Byte) : Bool := a.toNat + b.toNat > 255

/-- SUB and SUBN: the minuend is strictly greater than the subtrahend (R148, R150). -/
def subFlag (minuend subtrahend : Byte) : Bool := minuend.toNat > subtrahend.toNat

/-- SHR: the pre-shift low bit (R149). -/
def shrFlag (a : Byte) : Bool := a.getLsbD 0

/-- SHL: the pre-shift high bit (R151). -/
def shlFlag (a : Byte) : Bool := a.getLsbD 7

/-- `WriteResultAndFlag(x, r, f)` (R140): where x is not F the two writes reach different registers and their order is
invisible; where x is F the configuration `VF_ORDER` decides which survives. -/
def writeResultAndFlag (x : Nibble) (r : Byte) (f : Bool) (s : State) : State :=
  if x = flagReg then
    match s.cfg.vfOrder with
    | .flagLast   => (s.setV x r).setV flagReg (flagByte f)
    | .resultLast => (s.setV flagReg (flagByte f)).setV x r
  else (s.setV x r).setV flagReg (flagByte f)

end Sys2Proof.Machine
end

