-- ==== Sys2Proof/Machine/Display.lean ====
section
/-! DEFINITION. Display instructions (spec 44_display.md R190 to R193): the only writers of the framebuffer. The loops of
DRAW are written as R191 writes them, row by row and column by column. -/

namespace Sys2Proof.Machine

/-- `SpriteBit(s, col)` (R192): bit 7 is the leftmost pixel, by general knowledge (PRESUMED, unsafe, log entry 12). -/
def spriteBit (b : Byte) (col : Nat) : Bool := b.getLsbD (7 - col)

/-- The column of a sprite pixel, wrapped (R191). -/
def wrapX (n : Nat) : Fin 64 := ⟨n % 64, Nat.mod_lt n (by decide)⟩

/-- The row of a sprite pixel, wrapped (R191). -/
def wrapY (n : Nat) : Fin 32 := ⟨n % 32, Nat.mod_lt n (by decide)⟩

/-- The framebuffer and the collision so far: `true` once a set pixel has been turned off. -/
abbrev Blit := Framebuffer × Bool

/-- One sprite pixel of R191: where its bit is set, the cell is inverted, and it collides if it was on. -/
def plot (cx cy : Nat) (b : Byte) (acc : Blit) (col : Nat) : Blit :=
  if spriteBit b col then
    (acc.1.put (wrapX (cx + col)) (wrapY cy) (!acc.1.get (wrapX (cx + col)) (wrapY cy)),
     acc.2 || acc.1.get (wrapX (cx + col)) (wrapY cy))
  else acc

/-- One sprite row: columns 0 to 7. -/
def blitRow (cx cy : Nat) (b : Byte) (acc : Blit) : Blit := (List.range 8).foldl (plot cx cy b) acc

/-- The sprite rows from the top, one to a screen row. -/
def blit (cx : Nat) : Nat → List Byte → Blit → Blit
  | _, [], acc       => acc
  | cy, b :: bs, acc => blit cx (cy + 1) bs (blitRow cx cy b acc)

/-- CLEAR (R190). -/
def execClear (s : State) : Result := .next (s.show Framebuffer.blank).advance

/-- The blit of DRAW: from the contents of Vx and Vy, read before VF is written (R191, conflict C4). -/
def drawBlit (x y n : Nibble) (s : State) : Blit :=
  blit (s.getV x).toNat (s.getV y).toNat (spriteBytes n s) (s.fb, false)

/-- DRAW (R191). -/
def execDraw (x y n : Nibble) (s : State) : Result :=
  if inMemory (indexAddr s) n.toNat then
    .next ((s.show (drawBlit x y n s).1).setV flagReg (flagByte (drawBlit x y n s).2)).advance
  else raise .memOutOfBounds (.draw x y n) s

end Sys2Proof.Machine
end

