-- ==== Sys2Proof/Machine/IndexMemory.lean ====
section
/-! DEFINITION. Index register and memory instructions (spec 43_index_memory.md R170 to R177). The whole address range is
checked before any write (20_memory.md R53), and I is never modified by a transfer (R176). -/

namespace Sys2Proof.Machine

/-- LOAD-I (R170). -/
def execLoadI (nnn : Imm12) (s : State) : Result := .next (s.setI (immAddr nnn)).advance

/-- ADD-TO-I (R171): 16-bit, no flag. -/
def execAddToI (x : Nibble) (s : State) : Result := .next (s.setI (s.i + (s.getV x).toWord)).advance

/-- LOAD-FONT-ADDR (R172). -/
def execLoadFontAddr (x : Nibble) (s : State) : Result := .next (s.setI (fontAddr x s)).advance

/-- STORE-BCD (R173). -/
def execStoreBcd (x : Nibble) (s : State) : Result :=
  if inMemory (indexAddr s) 3 then .next (s.writeBytes (indexAddr s) (bcdBytes (s.getV x))).advance
  else raise .memOutOfBounds (.storeBcd x) s

/-- STORE-REGS (R174). -/
def execStoreRegs (x : Nibble) (s : State) : Result :=
  if inMemory (indexAddr s) (regCount x) then .next (s.writeBytes (indexAddr s) (regBytes x s)).advance
  else raise .memOutOfBounds (.storeRegs x) s

/-- LOAD-REGS (R175). -/
def execLoadRegs (x : Nibble) (s : State) : Result :=
  if inMemory (indexAddr s) (regCount x) then .next (s.setRegs (loadedRegs x s)).advance
  else raise .memOutOfBounds (.loadRegs x) s

end Sys2Proof.Machine
end

