-- ==== Sys2Proof/Machine/KeysTimers.lean ====
section
/-! DEFINITION. Key and timer instructions (spec 45_keys_timers.md R210 to R215). The decay that follows each of them when
it completes is the step's (40_execution_cycle.md R105). -/

namespace Sys2Proof.Machine

/-- SKIP-KEY-PRESSED (R210). -/
def execSkipKeyPressed (x : Nibble) (s : State) : Result :=
  match keyIndex x s with
  | some k => .next (s.skipIf (s.key k))
  | none   => raise .keyIndexOutOfRange (.skipKeyPressed x) s

/-- SKIP-KEY-NOT-PRESSED (R211). -/
def execSkipKeyNotPressed (x : Nibble) (s : State) : Result :=
  match keyIndex x s with
  | some k => .next (s.skipIf (!s.key k))
  | none   => raise .keyIndexOutOfRange (.skipKeyNotPressed x) s

/-- GET-DELAY (R212). -/
def execGetDelay (x : Nibble) (s : State) : Result := .next (s.setV x s.dt).advance

/-- SET-DELAY (R213). -/
def execSetDelay (x : Nibble) (s : State) : Result := .next (s.setDt (s.getV x)).advance

/-- SET-SOUND (R214). -/
def execSetSound (x : Nibble) (s : State) : Result := .next (s.setSt (s.getV x)).advance

/-- WAIT-KEY in Running mode (R215): suspended where no key is pressed, else a key is captured in the same step. -/
def execWaitKey (x : Nibble) (s : State) : Result :=
  if s.keys = 0 then .next (s.setMode (.awaitingKey x))
  else .next (s.captureKey x).advance

end Sys2Proof.Machine
end

