-- ==== Sys2Proof/Machine/Lenient.lean ====
section
/-! DEFINITION. The lenient no-op (spec 30_encoding.md R80) in each of the four sub-dispatched families: PC advances by 2
and LENIENT_COUNT by 1. -/

namespace Sys2Proof.Machine

/-- NOP-LENIENT of family 0x0 (R76, R80). -/
def execNopLenient0 (s : State) : Result := .next s.countLenient.advance

/-- NOP-LENIENT of family 0x8 (R77, R80). -/
def execNopLenient8 (s : State) : Result := .next s.countLenient.advance

/-- NOP-LENIENT of family 0xE (R78, R80). -/
def execNopLenientE (s : State) : Result := .next s.countLenient.advance

/-- NOP-LENIENT of family 0xF (R79, R80). -/
def execNopLenientF (s : State) : Result := .next s.countLenient.advance

end Sys2Proof.Machine
end

