-- ==== Sys2Proof/Machine/RegisterAlu.lean ====
section
/-! DEFINITION. Register and ALU instructions (spec 42_register_alu.md R140 to R153). None faults and each advances PC by
2; every operand is read from the state before any write (00_scope.md R12). -/

namespace Sys2Proof.Machine

/-- LOAD-IMM (R141). -/
def execLoadImm (x : Nibble) (kk : Byte) (s : State) : Result := .next (s.setV x kk).advance

/-- ADD-IMM (R142): no flag. -/
def execAddImm (x : Nibble) (kk : Byte) (s : State) : Result := .next (s.setV x (s.getV x + kk)).advance

/-- LOAD (R143). -/
def execLoadReg (x y : Nibble) (s : State) : Result := .next (s.setV x (s.getV y)).advance

/-- OR (R144): no flag. -/
def execOrReg (x y : Nibble) (s : State) : Result := .next (s.setV x (s.getV x ||| s.getV y)).advance

/-- AND (R145): no flag. -/
def execAndReg (x y : Nibble) (s : State) : Result := .next (s.setV x (s.getV x &&& s.getV y)).advance

/-- XOR (R146): no flag. -/
def execXorReg (x y : Nibble) (s : State) : Result := .next (s.setV x (s.getV x ^^^ s.getV y)).advance

/-- ADD (R147). -/
def execAddReg (x y : Nibble) (s : State) : Result :=
  .next (writeResultAndFlag x (s.getV x + s.getV y) (addFlag (s.getV x) (s.getV y)) s).advance

/-- SUB (R148): Vx minus Vy. -/
def execSubReg (x y : Nibble) (s : State) : Result :=
  .next (writeResultAndFlag x (s.getV x - s.getV y) (subFlag (s.getV x) (s.getV y)) s).advance

/-- SHR (R149): Vx alone; y is not read. -/
def execShr (x : Nibble) (s : State) : Result :=
  .next (writeResultAndFlag x (s.getV x >>> 1) (shrFlag (s.getV x)) s).advance

/-- SUBN (R150): Vy minus Vx. -/
def execSubnReg (x y : Nibble) (s : State) : Result :=
  .next (writeResultAndFlag x (s.getV y - s.getV x) (subFlag (s.getV y) (s.getV x)) s).advance

/-- SHL (R151): Vx alone; y is not read. -/
def execShl (x : Nibble) (s : State) : Result :=
  .next (writeResultAndFlag x (s.getV x <<< 1) (shlFlag (s.getV x)) s).advance

/-- RANDOM (R152): the sampled byte masked by kk; the next byte on the input is free. -/
def execRandom (x : Nibble) (kk : Byte) (s : State) : Result := .next (s.setV x (s.rand &&& kk)).afterRand.advance

end Sys2Proof.Machine
end

