-- ==== Sys2Proof/Machine/Dispatch.lean ====
section
/-! DEFINITION. The dispatch of a decoded instruction to its handler (spec 40_execution_cycle.md R104), one arm per
constructor. `exec` is a handler alone: the mode is looked at and the timers decay in the step (R105, R106). The mode of
the state it answers says how the handler ended when it began in Running mode: Running for Completed, AwaitingKey for
Suspended, Halted for Fatal (R104). -/

namespace Sys2Proof.Machine

def exec (i : Instr) (s : State) : Host.Outcome State Fault Refusal :=
  match i with
  -- control flow and display
  | .clear _ => Sys2Proof.Machine.execClear s
  | .ret z => Sys2Proof.Machine.execRet z s
  | .jump nnn => Sys2Proof.Machine.execJump nnn s
  | .call nnn => Sys2Proof.Machine.execCall nnn s
  | .skipEqImm x kk => Sys2Proof.Machine.execSkipEqImm x kk s
  | .skipNeImm x kk => Sys2Proof.Machine.execSkipNeImm x kk s
  | .skipEqReg x y _ => Sys2Proof.Machine.execSkipEqReg x y s
  | .skipNeReg x y _ => Sys2Proof.Machine.execSkipNeReg x y s
  -- register and ALU
  | .loadImm x kk => Sys2Proof.Machine.execLoadImm x kk s
  | .addImm x kk => Sys2Proof.Machine.execAddImm x kk s
  | .loadReg x y => Sys2Proof.Machine.execLoadReg x y s
  | .orReg x y => Sys2Proof.Machine.execOrReg x y s
  | .andReg x y => Sys2Proof.Machine.execAndReg x y s
  | .xorReg x y => Sys2Proof.Machine.execXorReg x y s
  | .addReg x y => Sys2Proof.Machine.execAddReg x y s
  | .subReg x y => Sys2Proof.Machine.execSubReg x y s
  | .shr x _ => Sys2Proof.Machine.execShr x s
  | .subnReg x y => Sys2Proof.Machine.execSubnReg x y s
  | .shl x _ => Sys2Proof.Machine.execShl x s
  -- index, control flow, random, display
  | .loadI nnn => Sys2Proof.Machine.execLoadI nnn s
  | .jumpOffset nnn => Sys2Proof.Machine.execJumpOffset nnn s
  | .random x kk => Sys2Proof.Machine.execRandom x kk s
  | .draw x y n => Sys2Proof.Machine.execDraw x y n s
  -- keys and timers
  | .skipKeyPressed x => Sys2Proof.Machine.execSkipKeyPressed x s
  | .skipKeyNotPressed x => Sys2Proof.Machine.execSkipKeyNotPressed x s
  | .getDelay x => Sys2Proof.Machine.execGetDelay x s
  | .setDelay x => Sys2Proof.Machine.execSetDelay x s
  | .setSound x => Sys2Proof.Machine.execSetSound x s
  -- index and memory
  | .addToI x => Sys2Proof.Machine.execAddToI x s
  | .loadFontAddr x => Sys2Proof.Machine.execLoadFontAddr x s
  | .storeBcd x => Sys2Proof.Machine.execStoreBcd x s
  | .storeRegs x => Sys2Proof.Machine.execStoreRegs x s
  | .loadRegs x => Sys2Proof.Machine.execLoadRegs x s
  | .waitKey x => Sys2Proof.Machine.execWaitKey x s
  -- the lenient no-op
  | .nopLenient0 _ => Sys2Proof.Machine.execNopLenient0 s
  | .nopLenient8 _ => Sys2Proof.Machine.execNopLenient8 s
  | .nopLenientE _ => Sys2Proof.Machine.execNopLenientE s
  | .nopLenientF _ => Sys2Proof.Machine.execNopLenientF s

end Sys2Proof.Machine
end

