-- ==== Sys2Proof/Machine/Cycle.lean ====
section
/-! DEFINITION. The step cycle with its outputs (spec 40_execution_cycle.md R100 to R112): what one `STEP` strobe does. -/

namespace Sys2Proof.Machine

/-- The end of a completed instruction (R105): the timers decay once under PER_INSTRUCTION and never under
EXTERNAL_TICK. -/
def finish (t : State) : StepResult :=
  match t.cfg.timerSource with
  | .perInstruction => ⟨t.decayTimers.1, .completed, t.decayTimers.2⟩
  | .externalTick   => ⟨t, .completed, false⟩

/-- How a handler that began in Running mode ended (R104, R106): Completed, Suspended or Fatal. -/
def settle (t : State) : StepResult :=
  match t.mode with
  | .running       => finish t
  | .awaitingKey _ => ⟨t, .blocked, false⟩
  | .halted        => ⟨t, .faulted, false⟩

/-- A step in Running mode (R102 to R106): fetch, decode, execute. -/
def stepRunning (s : State) : Host.Outcome StepResult Fault Refusal :=
  if s.canFetch then
    match exec (decodeWord s.fetchWord) s with
    | .next t    => .next (settle t)
    | .fault f   => .fault f
    | .refused r => .refused r
  else .next (settle (s.enterFatal .pcOutOfBounds s.pc 0x0000))

/-- A step in AwaitingKey mode (R107): blocked with no change where no key is pressed, else the WAIT-KEY completes. -/
def stepAwaiting (t : Nibble) (s : State) : StepResult :=
  if s.keys = 0 then ⟨s, .blocked, false⟩
  else finish ((s.captureKey t).advance.setMode .running)

/-- One `STEP` strobe (R106), outputs included. In Halted mode nothing changes and the outcome is Halted (R108). -/
def strobeStep (s : State) : Host.Outcome StepResult Fault Refusal :=
  match s.mode with
  | .running       => stepRunning s
  | .awaitingKey t => .next (stepAwaiting t s)
  | .halted        => .next ⟨s, .halted, false⟩

end Sys2Proof.Machine
end

