-- ==== Sys2Proof/Machine/Step.lean ====
section
/-! DEFINITION. The machine's step: one `STEP` strobe, its outputs left aside. A step in Halted mode stops with a fault,
because a model treats the Halted state as a fault and never as a successful end (spec 40_execution_cycle.md R108,
60_exceptions.md R232); the step that enters Halted is a next state, with its fault record written. -/

namespace Sys2Proof.Machine

def step (s : State) : Host.Outcome State Fault Refusal :=
  match strobeStep s with
  | .next ⟨_, .halted, _⟩ => .fault .halted
  | .next r               => .next r.state
  | .fault f              => .fault f
  | .refused r            => .refused r

/-- `s` with the instruction word `w` (numbered as spec/opcode_table.json numbers it) where the next step fetches it. Every
instruction is one 16-bit word (R70), so the bits from `nbits` up are zero. DESIGN CHOICE, safe (log entry 9). -/
def State.withFetchWord (s : State) (nbits w : Nat) : State := s.placeWord (BitVec.ofNat 16 (w % 2 ^ min nbits 16))

end Sys2Proof.Machine
end

