-- ==== Sys2Proof/Machine/HostPort.lean ====
section
/-! DEFINITION. The host's side of the block (spec 60_exceptions.md R250 to R268, 70_reset_and_hazards.md R280 to R284):
the register map, the key setter, the tick, the launch state, and the host's actions between steps. -/

namespace Sys2Proof.Machine

/-! ### STATUS (R263) -/

/-- The MODE field: 0b00 Running, 0b01 AwaitingKey, 0b10 Halted. -/
def Mode.code : Mode → BitVec 2
  | .running       => 0b00
  | .awaitingKey _ => 0b01
  | .halted        => 0b10

/-- The WAIT_REG field: t of AwaitingKey(t), 0 in the other modes. -/
def Mode.waitReg : Mode → Nibble
  | .awaitingKey t    => t
  | .running | .halted => 0

/-- The STATUS register: WAIT_REG in bits 7:4, bit 3 reserved, MODE in bits 2:1, REDRAW in bit 0. -/
def State.status (s : State) : Byte := s.mode.waitReg ++ 0#1 ++ s.mode.code ++ BitVec.ofBool s.redraw

/-! ### Framebuffer packing (R264) -/

/-- Bit `7 - k` of FB_BYTE[b] is `FB(8·(b % 8) + k, b / 8)`. -/
def State.fbByte (s : State) (b : Byte) : Byte :=
  BitVec.ofFnLE (fun j : Fin 8 =>
    s.pixel ⟨8 * (b.toNat % 8) + (7 - j.val), by omega⟩ ⟨b.toNat / 8, by have := b.isLt; omega⟩)

/-! ### The register map (R262). The map ends at 0x1FFF, so an index is 13 bits; a value is read zero-extended to 32
(DEDUCED, safe, log entry 10). -/

/-- The host reads the register at an index; a reserved index reads 0. -/
def State.hostRead (s : State) (index : BitVec 13) : BitVec 32 :=
  let k := index.toNat
  if k < 0x010 then (s.getV (index.setWidth 4)).setWidth 32
  else if k = 0x010 then s.i.setWidth 32
  else if k = 0x011 then s.pc.setWidth 32
  else if k = 0x012 then BitVec.ofNat 32 s.sp.val
  else if k = 0x013 then s.dt.setWidth 32
  else if k = 0x014 then s.st.setWidth 32
  else if k = 0x015 then s.status.setWidth 32
  else if k = 0x016 then (FatalCause.code s.faultCause).setWidth 32
  else if k = 0x017 then s.faultPc.setWidth 32
  else if k = 0x018 then s.faultInstr.setWidth 32
  else if k = 0x019 then s.keys.setWidth 32
  else if k = 0x01A then s.lenientCount
  else if k < 0x020 then 0
  else if k < 0x030 then (s.stack[(index.setWidth 4).toNat]'(index.setWidth 4).isLt).setWidth 32
  else if k < 0x100 then 0
  else if k < 0x200 then (s.fbByte (index.setWidth 8)).setWidth 32
  else if k < 0x1000 then 0
  else (s.readByte (k - 0x1000)).setWidth 32

/-- The host writes the register at an index: KEYS is written whole, a 1 in bit 0 of STATUS clears REDRAW (R263), and every
other write has no effect (R265). -/
def State.hostWrite (s : State) (index : BitVec 13) (value : BitVec 32) : State :=
  if index = 0x019 then { s with keys := value.setWidth 16 }
  else if index = 0x015 then (if value.getLsbD 0 then { s with redraw := false } else s)
  else s

/-- The key setter (R251): a read-modify-write of bit k of KEYS. -/
def State.setKey (s : State) (k : Nibble) (pressed : Bool) : State :=
  let bit : BitVec 16 := 1 <<< k.toNat
  s.hostWrite 0x019 ((if pressed then s.keys ||| bit else s.keys &&& ~~~bit).setWidth 32)

/-! ### Tick (R242) -/

/-- A `TICK` strobe and its sound edge: one decay under EXTERNAL_TICK unless Halted; ignored under PER_INSTRUCTION. -/
def State.tick (s : State) : State × Bool :=
  match s.cfg.timerSource, s.mode with
  | .perInstruction, _                 => (s, false)
  | .externalTick, .halted             => (s, false)
  | .externalTick, .running            => s.decayTimers
  | .externalTick, .awaitingKey _      => s.decayTimers

/-! ### Launch (R283, R284) -/

/-- Reset the block and place a program image at 0x200; an image over `PROG_MAX` has no launch state (DESIGN CHOICE,
safe, log entry 15). -/
def launch (s : State) (image : List Byte) : Result :=
  if image.length ≤ Config.progMax then .next (s.strobeReset.writeBytes Config.progBase image)
  else .refused .imageTooLong

/-! ### The host's actions, each between two steps (R260, R261) -/

inductive HostAction where
  | reset
  | step
  | tick
  | write (index : BitVec 13) (value : BitVec 32)
  | setKey (k : Nibble) (pressed : Bool)
  | presentRand (b : Byte)
  | presentKeyChoice (k : Nibble)
  deriving DecidableEq, Repr

/-- What one host action does to the block, the outputs left aside. -/
def act (a : HostAction) (s : State) : Result :=
  match a with
  | .reset              => .next s.strobeReset
  | .step               =>
    match strobeStep s with
    | .next r    => .next r.state
    | .fault f   => .fault f
    | .refused r => .refused r
  | .tick               => .next s.tick.1
  | .write index value  => .next (s.hostWrite index value)
  | .setKey k pressed   => .next (s.setKey k pressed)
  | .presentRand b      => .next { s with rand := b }
  | .presentKeyChoice k => .next { s with keyChoice := k }

end Sys2Proof.Machine
end

