-- ==== Sys2Proof/Safety.lean ====
section
/-! DEFINITION. The terms claims are stated in: the parts of the state and what it means that a part is unchanged, a safe
state, and the invariants of a run. -/

namespace Sys2Proof.Machine

/-! ### Parts of the state -/

/-- One observable part of the state: a register, a byte, a pixel, or one of the block's or the model's other fields. -/
inductive Part where
  | v (r : Nibble)
  | i
  | pc
  | stack (j : Fin 16)
  | sp
  | dt
  | st
  | mem (a : Nat)
  | pixel (cx : Fin 64) (cy : Fin 32)
  | redraw
  | mode
  | faultCause
  | faultPc
  | faultInstr
  | lenientCount
  | keys
  | cfg
  | rand
  | keyChoice
  | drawn
  deriving DecidableEq, Repr

/-- The part reads the same in both states. -/
def Part.same (s t : State) : Part → Prop
  | .v r          => t.getV r = s.getV r
  | .i            => t.i = s.i
  | .pc           => t.pc = s.pc
  | .stack j      => t.stack[j.val] = s.stack[j.val]
  | .sp           => t.sp = s.sp
  | .dt           => t.dt = s.dt
  | .st           => t.st = s.st
  | .mem a        => t.readByte a = s.readByte a
  | .pixel cx cy  => t.pixel cx cy = s.pixel cx cy
  | .redraw       => t.redraw = s.redraw
  | .mode         => t.mode = s.mode
  | .faultCause   => t.faultCause = s.faultCause
  | .faultPc      => t.faultPc = s.faultPc
  | .faultInstr   => t.faultInstr = s.faultInstr
  | .lenientCount => t.lenientCount = s.lenientCount
  | .keys         => t.keys = s.keys
  | .cfg          => t.cfg = s.cfg
  | .rand         => t.rand = s.rand
  | .keyChoice    => t.keyChoice = s.keyChoice
  | .drawn        => t.drawn = s.drawn

/-- Every part of the state but the listed ones is unchanged from `s` to `t`: every other register, every byte of memory,
every pixel, every stack entry and every other field. -/
def UnchangedBut (ps : List Part) (s t : State) : Prop := ∀ p, p ∉ ps → p.same s t

/-- The bytes of memory `a .. a + n - 1`. -/
def memParts (a n : Nat) : List Part := (List.range n).map (fun j => Part.mem (a + j))

/-- The registers V0 to Vx. -/
def regParts (x : Nibble) : List Part := (List.range (x.toNat + 1)).map (fun j => Part.v (BitVec.ofNat 4 j))

/-- Every pixel. -/
def pixelParts : List Part :=
  (List.finRange 32).flatMap (fun cy => (List.finRange 64).map (fun cx => Part.pixel cx cy))

/-- The fault record and MODE: what entering a fatal error writes (R232). -/
def fatalParts : List Part := [.mode, .faultCause, .faultPc, .faultInstr]

/-! ### What a handler answers -/

/-- The handler of `i` answers a next state, and `P` holds of it. -/
def Answers (i : Instr) (s : State) (P : State → Prop) : Prop := ∃ t, exec i s = .next t ∧ P t

/-- The handler completes, `b` is in Vx, PC is 2 further, and nothing but Vx and PC has changed. -/
def WritesReg (i : Instr) (s : State) (x : Nibble) (b : Byte) : Prop :=
  Answers i s (fun t => t.getV x = b ∧ t.pc = s.pc + 2 ∧ UnchangedBut [.v x, .pc] s t)

/-- The handler completes with the result `r` (on 8 bits) and the flag `f` written as R140 says, PC 2 further, and nothing
but Vx, VF and PC changed. -/
def WritesResultAndFlag (i : Instr) (s : State) (x : Nibble) (r : Nat) (f : Bool) : Prop :=
  Answers i s (fun t =>
    (x ≠ 0xF → t.getV x = BitVec.ofNat 8 r ∧ t.getV 0xF = if f then 1 else 0) ∧
    (x = 0xF → s.cfg.vfOrder = .flagLast → t.getV 0xF = if f then 1 else 0) ∧
    (x = 0xF → s.cfg.vfOrder = .resultLast → t.getV 0xF = BitVec.ofNat 8 r) ∧
    t.pc = s.pc + 2 ∧ UnchangedBut [.v x, .v 0xF, .pc] s t)

/-- The handler completes, PC is 4 further where the condition holds and 2 further where not, and nothing else changed. -/
def SkipsWhen (i : Instr) (s : State) (c : Bool) : Prop :=
  Answers i s (fun t => t.pc = (if c then s.pc + 4 else s.pc + 2) ∧ UnchangedBut [.pc] s t)

/-- The handler raises the fatal error `c`: the fault record names it, PC and the instruction's word, MODE is Halted, and
nothing else has changed (R232). -/
def RaisesFatal (i : Instr) (s : State) (c : FatalCause) : Prop :=
  Answers i s (fun t => t.mode = .halted ∧ t.faultCause = some c ∧ t.faultPc = s.pc ∧ t.faultInstr = encode i ∧
    UnchangedBut fatalParts s t)

/-- DRAW Dxyn has a set sprite bit for the pixel (cx, cy): some row below n and some column below 8 land on it, both wrapped,
and the bit of that row's byte, bit 7 leftmost, is 1 (R191, R192). -/
def SpriteOn (s : State) (x y n : Nibble) (cx : Fin 64) (cy : Fin 32) : Prop :=
  ∃ row col, row < n.toNat ∧ col < 8 ∧ cx.val = ((s.getV x).toNat + col) % 64 ∧
    cy.val = ((s.getV y).toNat + row) % 32 ∧ (s.readByte (s.i.toNat + row)).getLsbD (7 - col) = true

/-- DT as a completed handler of `i` leaves it, before the step's decay: V[x] for SET-DELAY Vx, else unchanged (R26, R213). -/
def State.dtGiven (s : State) (i : Instr) : Byte := match i with | .setDelay x => s.getV x | _ => s.dt

/-- ST as a completed handler of `i` leaves it, before the step's decay: V[x] for SET-SOUND Vx, else unchanged (R26, R214). -/
def State.stGiven (s : State) (i : Instr) : Byte := match i with | .setSound x => s.getV x | _ => s.st

/-! ### Safe states -/

/-- No fatal error has occurred: the block can still step (R108, R232). -/
def State.Safe (s : State) : Prop := s.mode ≠ .halted

/-! ### Invariants of a run -/

/-- Memory keeps its canonical form. -/
abbrev State.MemoryCanonical (s : State) : Prop := s.mem.wf s.cfg.font

/-- PC is at most 0x10FE, the address of a suspended WAIT-KEY and every live stack entry can be fetched at, as R24 and R120
state of reachable values. -/
def State.PcBounded (s : State) : Prop :=
  s.pc.toNat ≤ 0x10FE ∧ (∀ t, s.mode = .awaitingKey t → s.pc.toNat ≤ 0xFFE) ∧
  ∀ j : Fin 16, j.val < s.sp.val → s.stack[j.val].toNat ≤ 0xFFE

/-- In AwaitingKey(t), PC still holds the address of the WAIT-KEY whose target is t (R30). -/
def State.AwaitsAtWaitKey (s : State) : Prop :=
  ∀ t, s.mode = .awaitingKey t → s.canFetch = true ∧ decodeWord s.fetchWord = .waitKey t

/-- What R231 says of the state in which a fatal error of each cause was raised. -/
def State.CauseFits (s : State) : FatalCause → Prop
  | .stackOverflow      => ∃ nnn, decodeWord s.fetchWord = .call nnn ∧ s.sp.val = 16
  | .stackUnderflow     => ∃ z, decodeWord s.fetchWord = .ret z ∧ s.sp.val = 0
  | .pcOutOfBounds      => s.canFetch = false
  | .memOutOfBounds     =>
    ∃ n, 0 < n ∧ s.i.toNat + n > 0x1000 ∧
      ((∃ x y, decodeWord s.fetchWord = .draw x y (BitVec.ofNat 4 n) ∧ n < 16) ∨
       (∃ x, decodeWord s.fetchWord = .storeBcd x ∧ n = 3) ∨
       (∃ x, decodeWord s.fetchWord = .storeRegs x ∧ n = x.toNat + 1) ∨
       (∃ x, decodeWord s.fetchWord = .loadRegs x ∧ n = x.toNat + 1))
  | .keyIndexOutOfRange =>
    ∃ x, (s.getV x).toNat > 0x0F ∧
      (decodeWord s.fetchWord = .skipKeyPressed x ∨ decodeWord s.fetchWord = .skipKeyNotPressed x)

/-- The fault record is 0 while no fatal error has occurred; in Halted it names the cause, the address that still stands in
PC, and the instruction word there, or 0 for a fetch fault (R31, R231, R232). -/
def State.FaultRecorded (s : State) : Prop :=
  (s.mode ≠ .halted → s.faultCause = none ∧ s.faultPc = 0 ∧ s.faultInstr = 0) ∧
  (s.mode = .halted → ∃ c, s.faultCause = some c ∧ s.CauseFits c ∧ s.faultPc = s.pc ∧
    (c ≠ .pcOutOfBounds → s.canFetch = true) ∧
    s.faultInstr = if c = .pcOutOfBounds then 0 else s.fetchWord)

/-- The invariants together. -/
def State.Inv (s : State) : Prop :=
  s.MemoryCanonical ∧ s.PcBounded ∧ s.AwaitsAtWaitKey ∧ s.FaultRecorded

end Sys2Proof.Machine
end

