-- ==== Sys2Proof/Certificates/Slice0/Obligations.lean ====
section
/-! DEFINITION. The statements for the provers, from the numbered rules of the spec. Each is about every state, so it holds
under every configuration (`VF_ORDER`, `TIMER_SOURCE`, `FONT`) and every draw; where it could fail only in states no run
reaches, it takes an invariant of Safety.lean as a premise. -/

open Sys2Proof Sys2Proof.Machine

/-! ### Encoding -/

/-- R72, R83: decoding the word of a well-formed instruction gives the instruction back, every operand kept, those not
examined included. -/
def Obligations.DecodeOfEncodeIsTheInstruction : Prop :=
  ∀ i : Instr, i.wf = true → decodeWord (encode i) = i ∧ ∀ rest, decode (encodeBytes i ++ rest) = .ok (i, rest)

/-- R82: decode is total and unambiguous. Every word is the encoding of one well-formed instruction and of no other, and it
is the one the decoder answers. -/
def Obligations.EveryWordIsOneInstruction : Prop :=
  ∀ w : Word, (decodeWord w).wf = true ∧ encode (decodeWord w) = w ∧
    ∀ i : Instr, i.wf = true → encode i = w → i = decodeWord w

/-- R83: the decoded instruction's row matches the word under its mask, and a word that some instruction row matches is not
a lenient no-op. The rows of the 8xy_ family rest on the spec's general knowledge (R77; PRESUMED, log entry 11), the masks of
CLEAR and RETURN on its own decision D3 and those of 5xyn and 9xyn on its own decision D4 (log entry 16). -/
def Obligations.DecodedInstructionMatchesItsOpcodeRow : Prop :=
  ∀ w : Word, w &&& (opcodeRow (decodeWord w)).2 = (opcodeRow (decodeWord w)).1 ∧
    ((decodeWord w).isLenient = true ↔ ∀ row ∈ instructionRows, w &&& row.2 ≠ row.1)

/-- R71, R83: words written out from the formats decode to the instruction they stand for. The clauses for 0x8124, 0x81F6
and 0x8008 rest on the spec's general knowledge (R77; PRESUMED, log entry 11), the clause for 0x03E0 on its own decision D3,
and that for 0x5121 on its own decision D4 (log entry 16). -/
def Obligations.WordsOfEveryFormatDecode : Prop :=
  decodeWord 0x00E0 = .clear 0 ∧ decodeWord 0x03E0 = .clear 3 ∧ decodeWord 0x00EE = .ret 0 ∧
  decodeWord 0x1234 = .jump 0x234 ∧ decodeWord 0x3312 = .skipEqImm 3 0x12 ∧ decodeWord 0x5121 = .skipEqReg 1 2 1 ∧
  decodeWord 0x8124 = .addReg 1 2 ∧ decodeWord 0x81F6 = .shr 1 0xF ∧ decodeWord 0xDAB2 = .draw 0xA 0xB 2 ∧
  decodeWord 0xE5A1 = .skipKeyNotPressed 5 ∧ decodeWord 0xF30A = .waitKey 3 ∧ decodeWord 0xF265 = .loadRegs 2 ∧
  decodeWord 0x0123 = .nopLenient0 0x123 ∧ decodeWord 0x8008 = .nopLenient8 0x008 ∧
  decodeWord 0xE000 = .nopLenientE 0x000 ∧ decodeWord 0xF0FF = .nopLenientF 0x0FF

/-! ### Register and ALU instructions -/

/-- R141 to R143: LOAD-IMM, ADD-IMM and LOAD, with no flag written, PC + 2, and nothing else changed. -/
def Obligations.PlainRegisterInstructionsWriteVxAlone : Prop :=
  ∀ (s : State) (x y : Nibble) (kk : Byte),
    WritesReg (.loadImm x kk) s x kk ∧
    WritesReg (.addImm x kk) s x (BitVec.ofNat 8 ((s.getV x).toNat + kk.toNat)) ∧
    WritesReg (.loadReg x y) s x (s.getV y)

/-- R144 to R146: OR, AND and XOR. That VF is not written unless x = F is the spec's own decision D26. -/
def Obligations.BitwiseInstructionsWriteVxAlone : Prop :=
  ∀ (s : State) (x y : Nibble),
    WritesReg (.orReg x y) s x (s.getV x ||| s.getV y) ∧
    WritesReg (.andReg x y) s x (s.getV x &&& s.getV y) ∧
    WritesReg (.xorReg x y) s x (s.getV x ^^^ s.getV y)

/-- R147: ADD. Where x = F the statement holds under both values of `VF_ORDER` (R140, D1), and rests on neither. -/
def Obligations.AddSetsTheCarryFlag : Prop :=
  ∀ (s : State) (x y : Nibble),
    WritesResultAndFlag (.addReg x y) s x ((s.getV x).toNat + (s.getV y).toNat)
      ((s.getV x).toNat + (s.getV y).toNat > 255)

/-- R148, R150: SUB and SUBN; the flag is set where the minuend is strictly greater. Under both values of `VF_ORDER`. -/
def Obligations.SubtractionsSetTheStrictlyGreaterFlag : Prop :=
  ∀ (s : State) (x y : Nibble),
    WritesResultAndFlag (.subReg x y) s x (256 + (s.getV x).toNat - (s.getV y).toNat)
      ((s.getV x).toNat > (s.getV y).toNat) ∧
    WritesResultAndFlag (.subnReg x y) s x (256 + (s.getV y).toNat - (s.getV x).toNat)
      ((s.getV y).toNat > (s.getV x).toNat)

/-- R149, R151: SHR and SHL shift Vx, whatever y is, and the flag is the bit shifted out. Under both values of
`VF_ORDER`. -/
def Obligations.ShiftsSetTheBitShiftedOut : Prop :=
  ∀ (s : State) (x y : Nibble),
    WritesResultAndFlag (.shr x y) s x ((s.getV x).toNat / 2) ((s.getV x).toNat % 2 = 1) ∧
    WritesResultAndFlag (.shl x y) s x (2 * (s.getV x).toNat) ((s.getV x).toNat ≥ 128)

/-- R152: RANDOM writes the sampled byte masked by kk. `rand` and `drawn` are the model's input and its counter (log entry
2): the byte sampled is `s.rand`, and the statement is about every one. -/
def Obligations.RandomWritesTheMaskedDraw : Prop :=
  ∀ (s : State) (x : Nibble) (kk : Byte),
    Answers (.random x kk) s (fun t =>
      t.getV x = s.rand &&& kk ∧ t.pc = s.pc + 2 ∧ UnchangedBut [.v x, .pc, .rand, .drawn] s t)

/-! ### Control flow -/

/-- R121, R127: JUMP goes to nnn and JUMP-OFFSET to nnn + V0, not wrapped to 12 bits; nothing else changes. -/
def Obligations.JumpsSetThePcAlone : Prop :=
  ∀ (s : State) (nnn : Imm12),
    Answers (.jump nnn) s (fun t => t.pc.toNat = nnn.toNat ∧ UnchangedBut [.pc] s t) ∧
    Answers (.jumpOffset nnn) s (fun t => t.pc.toNat = nnn.toNat + (s.getV 0).toNat ∧ UnchangedBut [.pc] s t)

/-- R122: CALL pushes its own address below depth 16, and raises StackOverflow with nothing pushed at depth 16. -/
def Obligations.CallPushesTheCallSite : Prop :=
  ∀ (s : State) (nnn : Imm12),
    (∀ h : s.sp.val < 16, Answers (.call nnn) s (fun t =>
      t.stack[s.sp.val] = s.pc ∧ t.sp.val = s.sp.val + 1 ∧ t.pc.toNat = nnn.toNat ∧
      UnchangedBut [.stack ⟨s.sp.val, h⟩, .sp, .pc] s t)) ∧
    (s.sp.val = 16 → RaisesFatal (.call nnn) s .stackOverflow)

/-- R120: RETURN goes to the popped call site plus 2 and keeps the popped entry, and raises StackUnderflow on an empty
stack. -/
def Obligations.ReturnPopsTheCallSitePlusTwo : Prop :=
  ∀ (s : State) (z : Nibble),
    (∀ j : Fin 16, s.sp.val = j.val + 1 → Answers (.ret z) s (fun t =>
      t.sp.val = j.val ∧ t.pc = s.stack[j.val] + 2 ∧ UnchangedBut [.sp, .pc] s t)) ∧
    (s.sp.val = 0 → RaisesFatal (.ret z) s .stackUnderflow)

/-- R130: CALL then RETURN leaves PC at the call site plus 2 and the depth as before. The rule is the spec's
derivation from R120 and R122. -/
def Obligations.CallThenReturnResumesAfterTheCall : Prop :=
  ∀ (s : State) (nnn : Imm12) (z : Nibble) (h : s.sp.val < 16),
    ∃ t u, exec (.call nnn) s = .next t ∧ exec (.ret z) t = .next u ∧ u.pc = s.pc + 2 ∧ u.sp = s.sp ∧
      UnchangedBut [.pc, .stack ⟨s.sp.val, h⟩] s u

/-- R123, R124: the skips on an immediate compare and move PC alone. -/
def Obligations.ImmediateSkipsMoveThePcAlone : Prop :=
  ∀ (s : State) (x : Nibble) (kk : Byte),
    SkipsWhen (.skipEqImm x kk) s (s.getV x = kk) ∧ SkipsWhen (.skipNeImm x kk) s (s.getV x ≠ kk)

/-- R125, R126: the skips on a register compare and move PC alone. That bits 3..0 are not examined is the spec's own
decision D4. -/
def Obligations.RegisterSkipsMoveThePcAlone : Prop :=
  ∀ (s : State) (x y n : Nibble),
    SkipsWhen (.skipEqReg x y n) s (s.getV x = s.getV y) ∧
    SkipsWhen (.skipNeReg x y n) s (s.getV x ≠ s.getV y)

/-! ### Index and memory -/

/-- R170, R172: LOAD-I and LOAD-FONT-ADDR, the digit not masked. -/
def Obligations.IndexLoadsWriteIAlone : Prop :=
  ∀ (s : State) (x : Nibble) (nnn : Imm12),
    Answers (.loadI nnn) s (fun t => t.i.toNat = nnn.toNat ∧ t.pc = s.pc + 2 ∧ UnchangedBut [.i, .pc] s t) ∧
    Answers (.loadFontAddr x) s (fun t =>
      t.i.toNat = (s.getV x).toNat * 5 ∧ t.pc = s.pc + 2 ∧ UnchangedBut [.i, .pc] s t)

/-- R171: ADD-TO-I. That the sum wraps on 16 bits is the spec's own decision D6. -/
def Obligations.AddToIWritesIAlone : Prop :=
  ∀ (s : State) (x : Nibble),
    Answers (.addToI x) s (fun t =>
      t.i = BitVec.ofNat 16 (s.i.toNat + (s.getV x).toNat) ∧ t.pc = s.pc + 2 ∧ UnchangedBut [.i, .pc] s t)

/-- R173: STORE-BCD stores the three decimal digits at I, I+1, I+2, or faults with nothing written. The fault is the
spec's own decision D5. -/
def Obligations.StoreBcdWritesThreeDigits : Prop :=
  ∀ (s : State) (x : Nibble),
    (s.i.toNat + 2 ≤ 0xFFF → Answers (.storeBcd x) s (fun t =>
      t.readByte s.i.toNat = BitVec.ofNat 8 ((s.getV x).toNat / 100) ∧
      t.readByte (s.i.toNat + 1) = BitVec.ofNat 8 ((s.getV x).toNat / 10 % 10) ∧
      t.readByte (s.i.toNat + 2) = BitVec.ofNat 8 ((s.getV x).toNat % 10) ∧
      t.pc = s.pc + 2 ∧ UnchangedBut (.pc :: memParts s.i.toNat 3) s t)) ∧
    (s.i.toNat + 2 > 0xFFF → RaisesFatal (.storeBcd x) s .memOutOfBounds)

/-- R174: STORE-REGS copies V0 to Vx to memory at I, or faults with nothing written. The fault is the spec's own
decision D5. -/
def Obligations.StoreRegsCopiesRegistersToMemory : Prop :=
  ∀ (s : State) (x : Nibble),
    (s.i.toNat + x.toNat ≤ 0xFFF → Answers (.storeRegs x) s (fun t =>
      (∀ j : Nibble, j.toNat ≤ x.toNat → t.readByte (s.i.toNat + j.toNat) = s.getV j) ∧
      t.pc = s.pc + 2 ∧ UnchangedBut (.pc :: memParts s.i.toNat (x.toNat + 1)) s t)) ∧
    (s.i.toNat + x.toNat > 0xFFF → RaisesFatal (.storeRegs x) s .memOutOfBounds)

/-- R175: LOAD-REGS copies memory at I to V0 to Vx, or faults with no register written. The fault is the spec's own
decision D5. -/
def Obligations.LoadRegsCopiesMemoryToRegisters : Prop :=
  ∀ (s : State) (x : Nibble),
    (s.i.toNat + x.toNat ≤ 0xFFF → Answers (.loadRegs x) s (fun t =>
      (∀ j : Nibble, j.toNat ≤ x.toNat → t.getV j = s.readByte (s.i.toNat + j.toNat)) ∧
      t.pc = s.pc + 2 ∧ UnchangedBut (.pc :: regParts x) s t)) ∧
    (s.i.toNat + x.toNat > 0xFFF → RaisesFatal (.loadRegs x) s .memOutOfBounds)

/-- R177: after STORE-REGS(x), whatever V0 to Vx and PC are changed to (zeroed, in the rule), LOAD-REGS(x) restores
every register, and I is unchanged. The rule is the spec's derivation from R174 and R175. -/
def Obligations.StoreRegsThenLoadRegsRestores : Prop :=
  ∀ (s t u : State) (x : Nibble), s.i.toNat + x.toNat ≤ 0xFFF → exec (.storeRegs x) s = .next t →
    UnchangedBut (.pc :: regParts x) t u →
    Answers (.loadRegs x) u (fun w => (∀ r, w.getV r = s.getV r) ∧ w.i = s.i)

/-! ### Display -/

/-- R190: CLEAR turns every pixel off and marks redraw. -/
def Obligations.ClearBlanksTheScreen : Prop :=
  ∀ (s : State) (z : Nibble), Answers (.clear z) s (fun t =>
    (∀ cx cy, t.pixel cx cy = false) ∧ t.redraw = true ∧ t.pc = s.pc + 2 ∧
    UnchangedBut (.redraw :: .pc :: pixelParts) s t)

/-- R191, R192: DRAW inverts exactly the pixels its sprite bits land on, wrapped in both directions, VF is 1 where one
of them was on and 0 otherwise, redraw is marked; or it faults with nothing written. The fault is the spec's own
decision D5, and the order of a sprite byte's bits its general knowledge (log entry 12). -/
def Obligations.DrawInvertsExactlyTheSpritePixels : Prop :=
  ∀ (s : State) (x y n : Nibble),
    (n = 0 ∨ s.i.toNat + n.toNat - 1 ≤ 0xFFF → Answers (.draw x y n) s (fun t =>
      (∀ cx cy, (SpriteOn s x y n cx cy → t.pixel cx cy = !s.pixel cx cy) ∧
        (¬ SpriteOn s x y n cx cy → t.pixel cx cy = s.pixel cx cy)) ∧
      ((∃ cx cy, SpriteOn s x y n cx cy ∧ s.pixel cx cy = true) → t.getV 0xF = 1) ∧
      (¬ (∃ cx cy, SpriteOn s x y n cx cy ∧ s.pixel cx cy = true) → t.getV 0xF = 0) ∧
      t.redraw = true ∧ t.pc = s.pc + 2 ∧ UnchangedBut (.v 0xF :: .redraw :: .pc :: pixelParts) s t)) ∧
    (0 < n.toNat → s.i.toNat + n.toNat - 1 > 0xFFF → RaisesFatal (.draw x y n) s .memOutOfBounds)

/-- R191's worked example, from any screen: drawing a sprite twice at one place restores every pixel, and where the
first draw lit a pixel of it the second sets VF. VF holds the flag between the two, so it is no coordinate here. The
order of a sprite byte's bits is the spec's general knowledge (log entry 12). -/
def Obligations.DrawingTwiceRestoresTheScreen : Prop :=
  ∀ (s : State) (x y n : Nibble), x ≠ 0xF → y ≠ 0xF → s.i.toNat + n.toNat ≤ 0x1000 →
    ∃ t u, exec (.draw x y n) s = .next t ∧ exec (.draw x y n) t = .next u ∧
      (∀ cx cy, u.pixel cx cy = s.pixel cx cy) ∧
      ((∃ cx cy, SpriteOn s x y n cx cy ∧ s.pixel cx cy = false) → u.getV 0xF = 1)

/-! ### Keys, timers and the lenient no-op -/

/-- R210, R211: the key skips test the key Vx names, and raise KeyIndexOutOfRange where it names none. The fault is
the spec's own decision D7. -/
def Obligations.KeySkipsTestTheNamedKey : Prop :=
  ∀ (s : State) (x k : Nibble),
    (s.getV x = k.setWidth 8 → SkipsWhen (.skipKeyPressed x) s (s.key k) ∧
      SkipsWhen (.skipKeyNotPressed x) s (!s.key k)) ∧
    ((s.getV x).toNat > 0x0F → RaisesFatal (.skipKeyPressed x) s .keyIndexOutOfRange ∧
      RaisesFatal (.skipKeyNotPressed x) s .keyIndexOutOfRange)

/-- R212 to R214: GET-DELAY reads DT, SET-DELAY and SET-SOUND write DT and ST (before the step's decay). What the
step's decay then does is `TimersDecayOncePerCompletedInstruction`. -/
def Obligations.TimerInstructionsMoveOneTimer : Prop :=
  ∀ (s : State) (x : Nibble),
    WritesReg (.getDelay x) s x s.dt ∧
    Answers (.setDelay x) s (fun t => t.dt = s.getV x ∧ t.pc = s.pc + 2 ∧ UnchangedBut [.dt, .pc] s t) ∧
    Answers (.setSound x) s (fun t => t.st = s.getV x ∧ t.pc = s.pc + 2 ∧ UnchangedBut [.st, .pc] s t)

/-- R215: WAIT-KEY with no key pressed suspends with PC unchanged; with one pressed it captures a pressed key, the one
the draw names where that one is pressed, in the same step. `keyChoice` and `drawn` are the model's input and counter
(log entry 3). That a key already held is captured at once is the spec's own decision D9. -/
def Obligations.WaitKeySuspendsOrCaptures : Prop :=
  ∀ (s : State) (x : Nibble),
    ((∀ k, s.key k = false) → Answers (.waitKey x) s (fun t =>
      t.mode = .awaitingKey x ∧ UnchangedBut [.mode] s t)) ∧
    ((∃ k, s.key k = true) → Answers (.waitKey x) s (fun t =>
      (∃ k : Nibble, s.key k = true ∧ t.getV x = k.setWidth 8) ∧
      (s.key s.keyChoice = true → t.getV x = s.keyChoice.setWidth 8) ∧
      t.pc = s.pc + 2 ∧ UnchangedBut [.v x, .pc, .keyChoice, .drawn] s t))

/-- R80: the lenient no-op of each family counts itself and advances PC by 2, and nothing else changes. The counter is
the spec's own decision D20. -/
def Obligations.LenientNoOpCountsItself : Prop :=
  ∀ (s : State) (low : Imm12),
    ∀ i ∈ [Instr.nopLenient0 low, Instr.nopLenient8 low, Instr.nopLenientE low, Instr.nopLenientF low],
      Answers i s (fun t => t.lenientCount = s.lenientCount + 1 ∧ t.pc = s.pc + 2 ∧
        UnchangedBut [.lenientCount, .pc] s t)

/-! ### Who may write a part of the state -/

/-- R21, R22: a handler changes a general register only as the destination x it names, as one of V0 to Vx of LOAD-REGS, or
VF as the flag of ADD, SUB, SHR, SUBN, SHL and DRAW. -/
def Obligations.RegistersChangeOnlyAsNamedOrAsFlag : Prop :=
  ∀ (i : Instr) (s t : State) (r : Nibble), exec i s = .next t → t.getV r ≠ s.getV r →
    (∃ kk, i = .loadImm r kk ∨ i = .addImm r kk ∨ i = .random r kk) ∨
    (∃ y, i = .loadReg r y ∨ i = .orReg r y ∨ i = .andReg r y ∨ i = .xorReg r y ∨ i = .addReg r y ∨ i = .subReg r y ∨
      i = .shr r y ∨ i = .subnReg r y ∨ i = .shl r y) ∨
    i = .getDelay r ∨ i = .waitKey r ∨ (∃ x : Nibble, i = .loadRegs x ∧ r.toNat ≤ x.toNat) ∨
    (r = 0xF ∧ ((∃ x y, i = .addReg x y ∨ i = .subReg x y ∨ i = .shr x y ∨ i = .subnReg x y ∨ i = .shl x y) ∨
      ∃ x y n, i = .draw x y n))

/-- R23, R25, R26, R32: I changes only by its three writers, the stack and SP only by CALL and RETURN, DT and ST only
by SET-DELAY and SET-SOUND (in a handler), LENIENT_COUNT only by a lenient no-op. Stated of handlers: the step's decay
and reset stand outside them. -/
def Obligations.IndexStackTimersChangeOnlyByTheirWriters : Prop :=
  ∀ (i : Instr) (s t : State), exec i s = .next t →
    (t.i ≠ s.i → (∃ nnn, i = .loadI nnn) ∨ (∃ x, i = .addToI x ∨ i = .loadFontAddr x)) ∧
    (t.stack ≠ s.stack → ∃ nnn, i = .call nnn) ∧
    (t.sp ≠ s.sp → (∃ nnn, i = .call nnn) ∨ ∃ z, i = .ret z) ∧
    (t.dt ≠ s.dt → ∃ x, i = .setDelay x) ∧ (t.st ≠ s.st → ∃ x, i = .setSound x) ∧
    (t.lenientCount ≠ s.lenientCount → i.isLenient = true)

/-- R52: over every action of the host, a byte of memory changes only by reset or by a step that runs STORE-BCD or
STORE-REGS. -/
def Obligations.MemoryChangesOnlyByStoresAndReset : Prop :=
  ∀ (a : HostAction) (s t : State) (k : Nat), act a s = .next t → t.readByte k ≠ s.readByte k →
    a = .reset ∨
    (a = .step ∧ s.mode = .running ∧
      ∃ x, decodeWord s.fetchWord = .storeBcd x ∨ decodeWord s.fetchWord = .storeRegs x)

/-- R193: over every action of the host, a pixel changes only by reset or by a step that runs CLEAR or DRAW. -/
def Obligations.PixelsChangeOnlyByClearDrawAndReset : Prop :=
  ∀ (a : HostAction) (s t : State) (cx : Fin 64) (cy : Fin 32), act a s = .next t → t.pixel cx cy ≠ s.pixel cx cy →
    a = .reset ∨
    (a = .step ∧ s.mode = .running ∧
      ((∃ z, decodeWord s.fetchWord = .clear z) ∨ ∃ x y n, decodeWord s.fetchWord = .draw x y n))

/-- R28: REDRAW is set by reset and by a step that runs CLEAR or a DRAW that completes; it is cleared only by the host's
write of a 1 to bit 0 of STATUS. -/
def Obligations.RedrawIsSetByDrawingAndClearedByTheHost : Prop :=
  ∀ (a : HostAction) (s t : State), act a s = .next t →
    (s.redraw = true → t.redraw = false → ∃ value, a = .write 0x015 value ∧ value.getLsbD 0 = true) ∧
    (s.redraw = false → t.redraw = true → a = .reset ∨
      (a = .step ∧ s.mode = .running ∧
        ((∃ z, decodeWord s.fetchWord = .clear z) ∨ ∃ x y n, decodeWord s.fetchWord = .draw x y n))) ∧
    (a = .reset → t.redraw = true) ∧
    (a = .step → s.mode = .running → s.canFetch = true → t.mode ≠ .halted →
      ((∃ z, decodeWord s.fetchWord = .clear z) ∨ ∃ x y n, decodeWord s.fetchWord = .draw x y n) → t.redraw = true)

/-- R29, R36: no step, tick or reset writes the key vector or the configuration; the host's KEYS write and key setter are
the only writers of the keys. -/
def Obligations.KeysAndConfigurationAreTheHosts : Prop :=
  ∀ (a : HostAction) (s t : State), act a s = .next t →
    t.cfg = s.cfg ∧ (t.keys ≠ s.keys → (∃ value, a = .write 0x019 value) ∨ ∃ k p, a = .setKey k p)

/-! ### The step -/

/-- R102 to R106: where the two bytes at PC decode to `i`, the step in Running mode is the handler of `i`, followed by the
decay of the timers where the handler completed and the timers decay per instruction. -/
def Obligations.StepRunsTheDecodedInstruction : Prop :=
  ∀ (s : State) (i : Instr), s.mode = .running → s.pc.toNat + 1 ≤ 0xFFF →
    decode [s.readByte s.pc.toNat, s.readByte (s.pc.toNat + 1)] = .ok (i, []) →
    ∀ t, exec i s = .next t →
      step s = .next (if t.mode = .running ∧ t.cfg.timerSource = .perInstruction then t.decayTimers.1 else t)

/-- R102: a fetch that reaches above 0xFFF raises PcOutOfBounds, and nothing else changes. The record's content is the
spec's own decision D13. -/
def Obligations.FetchAboveMemoryIsFatal : Prop :=
  ∀ s : State, s.mode = .running → s.pc.toNat + 1 > 0xFFF →
    ∃ t, step s = .next t ∧ t.mode = .halted ∧ t.faultCause = some .pcOutOfBounds ∧ t.faultPc = s.pc ∧
      t.faultInstr = 0x0000 ∧ UnchangedBut fatalParts s t

/-- R107: a step in AwaitingKey(t) with no key pressed changes nothing; with one pressed, V[t] takes a pressed key's
index, PC advances by 2, MODE is Running and the instruction is completed. Which pressed key is taken is the model's
input (log entry 3). -/
def Obligations.AwaitingStepBlocksOrCaptures : Prop :=
  ∀ (s : State) (x : Nibble), s.mode = .awaitingKey x →
    ((∀ k, s.key k = false) → strobeStep s = .next ⟨s, .blocked, false⟩ ∧ step s = .next s) ∧
    ((∃ k, s.key k = true) → ∃ r, strobeStep s = .next r ∧ step s = .next r.state ∧ r.outcome = .completed ∧
      r.state.mode = .running ∧ r.state.pc = s.pc + 2 ∧
      (∃ k : Nibble, s.key k = true ∧ r.state.getV x = k.setWidth 8) ∧
      UnchangedBut [.v x, .pc, .mode, .dt, .st, .keyChoice, .drawn] s r.state)

/-- R81, R108: a step stops in Halted mode and in no other: every word runs, and every other step answers a next state. In
Halted mode the strobe changes nothing and reports Halted; that the model's `step` then answers a fault is R108's 'a model
treats the Halted state as a fault' (log entry 7). -/
def Obligations.StepStopsExactlyWhenHalted : Prop :=
  ∀ s : State, (s.mode ≠ .halted → ∃ t, step s = .next t) ∧
    (s.mode = .halted → strobeStep s = .next ⟨s, .halted, false⟩ ∧ step s = .fault .halted)

/-- R101: the mode transitions, over every action of the host, and no other. The table is the spec's own decision D14. -/
def Obligations.ModeChangesOnlyAsTheTableSays : Prop :=
  ∀ (a : HostAction) (s t : State), act a s = .next t →
    (a = .reset → t.mode = .running) ∧
    (a ≠ .reset → a ≠ .step → t.mode = s.mode) ∧
    (a = .step → s.mode = .halted → t = s) ∧
    (∀ x, a = .step → s.mode = .awaitingKey x →
      t.mode = if s.keys = 0 then .awaitingKey x else .running) ∧
    (a = .step → s.mode = .running → t.mode = .running ∨ (t.mode = .halted ∧ t.faultCause ≠ none) ∨
      ∃ x, t.mode = .awaitingKey x ∧ s.canFetch = true ∧ decodeWord s.fetchWord = .waitKey x ∧ s.keys = 0) ∧
    (∀ x, a = .step → s.mode = .running → s.canFetch = true → decodeWord s.fetchWord = .waitKey x → s.keys = 0 →
      t.mode = .awaitingKey x)

/-- R232: a fatal error is precise. The step that enters Halted changes the fault record and MODE alone: PC keeps the
faulting address and the timers do not decay. Precision is the spec's own decision D14. -/
def Obligations.FatalErrorsArePrecise : Prop :=
  ∀ s t : State, s.mode = .running → step s = .next t → t.mode = .halted →
    UnchangedBut fatalParts s t ∧ t.faultPc = s.pc ∧
    ∃ c, t.faultCause = some c ∧ t.faultInstr = if c = .pcOutOfBounds then 0x0000 else s.fetchWord

/-- R231, R234: a step in Running mode ends in a fatal error of cause c exactly where the condition the table gives
for c holds of the state before it. The last two causes are the spec's own decisions D5 and D7. -/
def Obligations.FatalCausesAreExactlyTheTable : Prop :=
  ∀ (s t : State) (c : FatalCause), s.mode = .running → step s = .next t →
    ((t.mode = .halted ∧ t.faultCause = some c) ↔ (s.CauseFits c ∧ (c ≠ .pcOutOfBounds → s.canFetch = true)))

/-- R105, R240: under PER_INSTRUCTION a step that completes an instruction decrements both timers once, toward zero,
after the instruction's own write; a step that does not complete one, and every step under EXTERNAL_TICK, decays
neither. Which steps decay is the spec's own decision D10, the two sources D11. -/
def Obligations.TimersDecayOncePerCompletedInstruction : Prop :=
  ∀ s t : State, step s = .next t →
    let dt := if s.mode = .running then s.dtGiven (decodeWord s.fetchWord) else s.dt
    let st := if s.mode = .running then s.stGiven (decodeWord s.fetchWord) else s.st
    (t.mode = .running → s.cfg.timerSource = .perInstruction →
      t.dt.toNat = dt.toNat - 1 ∧ t.st.toNat = st.toNat - 1) ∧
    (t.mode = .running → s.cfg.timerSource = .externalTick → t.dt = dt ∧ t.st = st) ∧
    (t.mode ≠ .running → t.dt = s.dt ∧ t.st = s.st)

/-- R109, R241: the sound edge of a step is 1 exactly where the decay of that step moved ST from 1 to 0, and that of a
tick exactly where the tick did; writing 0 to ST fires none. The edge is the spec's own decision D12. -/
def Obligations.SoundEdgeFiresOnTheDecayFromOne : Prop :=
  ∀ s : State,
    (∀ r, strobeStep s = .next r →
      (r.soundEdge = true ↔ r.outcome = .completed ∧ s.cfg.timerSource = .perInstruction ∧
        (if s.mode = .running then s.stGiven (decodeWord s.fetchWord) else s.st) = 1)) ∧
    (s.tick.2 = true ↔ s.cfg.timerSource = .externalTick ∧ s.mode ≠ .halted ∧ s.st = 1)

/-- R62: a store is seen by the very next fetch. STORE-REGS of V0 and V1 over the next instruction makes the next step
fetch those two bytes. The rule is the spec's derivation from R50 and R54. -/
def Obligations.StoredBytesAreFetchedNext : Prop :=
  ∀ (s : State) (x : Nibble), s.mode = .running → s.pc.toNat + 3 ≤ 0xFFF → 1 ≤ x.toNat →
    s.i = s.pc + 2 → s.i.toNat + x.toNat ≤ 0xFFF → decodeWord s.fetchWord = .storeRegs x →
    ∃ t, step s = .next t ∧ t.mode = .running ∧ t.canFetch = true ∧ t.fetchWord = s.getV 0 ++ s.getV 1

/-- R25, R32: what is never read. Two states that agree but for LENIENT_COUNT and the stack entries at and above SP step
alike: both stop with the same fault, or both go on to states that agree again but for those. -/
def Obligations.StaleStackAndCounterAreNeverObserved : Prop :=
  ∀ s u : State,
    (∀ p : Part, p ≠ .lenientCount → (∀ j : Fin 16, p = .stack j → j.val < s.sp.val) → p.same s u) →
    (∀ f, step s = .fault f → step u = .fault f) ∧
    ∀ t, step s = .next t → ∃ w, step u = .next w ∧
      ∀ p : Part, p ≠ .lenientCount → (∀ j : Fin 16, p = .stack j → j.val < t.sp.val) → p.same t w

/-! ### Invariants -/

/-- Every action of the host, a step included, keeps memory in its canonical form. The form is the model's own (log
entry 8). -/
def Obligations.ActionsKeepMemoryCanonical : Prop :=
  ∀ (a : HostAction) (s t : State), s.MemoryCanonical → act a s = .next t → t.MemoryCanonical

/-- R24: PC stays at most 0x10FE and a live stack entry at most 0xFFE, through every action of the host. The bound on
a suspended PC is the model's deduction from R102. -/
def Obligations.ActionsKeepThePcBounded : Prop :=
  ∀ (a : HostAction) (s t : State), s.PcBounded → act a s = .next t → t.PcBounded

/-- R30: in AwaitingKey(t), PC still holds the address of a WAIT-KEY whose target is t. -/
def Obligations.ActionsKeepThePcAtTheWaitKey : Prop :=
  ∀ (a : HostAction) (s t : State), s.AwaitsAtWaitKey → act a s = .next t → t.AwaitsAtWaitKey

/-- R31: the fault record is 0 outside Halted, and in Halted it names the cause, the address and the word of the fault. -/
def Obligations.ActionsKeepTheFaultRecord : Prop :=
  ∀ (a : HostAction) (s t : State), s.FaultRecorded → act a s = .next t → t.FaultRecorded

/-- Every step of the machine keeps the four invariants together. Two parts of them are the model's and no rule of the spec:
the canonical form of memory (DESIGN CHOICE, log entry 8) and, in the bound on PC, that of a suspended PC, deduced from
R102. -/
def Obligations.StepKeepsTheInvariants : Prop :=
  ∀ s t : State, s.Inv → step s = .next t → t.Inv

/-- The invariants hold at reset and in every launch state. Two parts of them are the model's and no rule of the spec: the
canonical form of memory (DESIGN CHOICE, log entry 8) and, in the bound on PC, that of a suspended PC, deduced from R102. -/
def Obligations.ResetAndLaunchMeetTheInvariants : Prop :=
  State.reset.Inv ∧ ∀ (s t : State) (image : List Byte), launch s image = .next t → t.Inv

/-! ### Reset, launch and the host's port -/

/-- R35, R280, R282: what a RESET strobe leaves, from every mode: memory included, KEY unchanged. The values the
source's sentence does not name are the spec's own decision D16. -/
def Obligations.ResetStrobeLeavesTheResetValues : Prop :=
  ∀ s : State, ∃ t, act .reset s = .next t ∧
    (∀ r, t.getV r = 0) ∧ t.i = 0 ∧ t.pc = 0x0200 ∧ (∀ j : Fin 16, t.stack[j.val] = 0) ∧ t.sp.val = 0 ∧ t.dt = 0 ∧
    t.st = 0 ∧ (∀ j : Fin 80, t.readByte j.val = s.cfg.font[j.val]) ∧ (∀ a, 80 ≤ a → t.readByte a = 0) ∧
    (∀ cx cy, t.pixel cx cy = false) ∧ t.redraw = true ∧ t.mode = .running ∧ t.faultCause = none ∧ t.faultPc = 0 ∧
    t.faultInstr = 0 ∧ t.lenientCount = 0 ∧ ∀ k, t.key k = s.key k

/-- R35, R34: the state after reset that a run begins from is what a RESET strobe leaves, with the default FONT (glyph
0 and glyph F shown here) and PC at 0x200. The glyphs are the spec's general knowledge (R34, log entry 5). -/
def Obligations.ResetStateIsWhatResetLeaves : Prop :=
  core.reset = State.reset ∧ State.reset.strobeReset = State.reset ∧ State.reset.pc = 0x200 ∧
    State.reset.readBytes 0 5 = [0xF0, 0x90, 0x90, 0x90, 0xF0] ∧
    State.reset.readBytes 75 5 = [0xF0, 0x80, 0xF0, 0x80, 0x80]

/-- R284: the launch state of an image is the reset state with the image at 0x200; an image over 0xE00 bytes has none.
The launch state is the spec's own decision D23; that an image too long is refused is log entry 15. -/
def Obligations.LaunchPlacesTheImage : Prop :=
  ∀ (s : State) (image : List Byte),
    (image.length ≤ 0xE00 → ∃ t, launch s image = .next t ∧
      (∀ j (h : j < image.length), t.readByte (0x200 + j) = image[j]) ∧
      UnchangedBut (memParts 0x200 image.length) s.strobeReset t) ∧
    (image.length > 0xE00 → launch s image = .refused .imageTooLong)

/-- R242: a TICK decays the timers once under EXTERNAL_TICK, in Running and AwaitingKey alike, has no effect in
Halted, and is ignored under PER_INSTRUCTION. The two sources are the spec's own decision D11. -/
def Obligations.TickDecaysUnderExternalTickAlone : Prop :=
  ∀ s : State,
    (s.cfg.timerSource = .externalTick → s.mode ≠ .halted →
      s.tick.1.dt.toNat = s.dt.toNat - 1 ∧ s.tick.1.st.toNat = s.st.toNat - 1 ∧ UnchangedBut [.dt, .st] s s.tick.1) ∧
    (s.mode = .halted ∨ s.cfg.timerSource = .perInstruction → s.tick = (s, false))

/-- R251, R263, R265: a host write changes KEYS at its index, clears REDRAW at STATUS where bit 0 is 1, and has no effect at
every other index; the key setter writes the one key it names. The register map is the spec's own decision D18; that an
index has 13 bits and that a value wider than KEYS keeps its low 16 bits is the model's (DEDUCED, log entry 10). -/
def Obligations.HostWritesReachKeysAndRedrawAlone : Prop :=
  ∀ (s : State) (index : BitVec 13) (value : BitVec 32) (k : Nibble) (p : Bool),
    ((∀ q, (s.setKey k p).key q = if q = k then p else s.key q) ∧ UnchangedBut [.keys] s (s.setKey k p)) ∧
    (index = 0x019 → (∀ k, (s.hostWrite index value).key k = value.getLsbD k.toNat) ∧
      UnchangedBut [.keys] s (s.hostWrite index value)) ∧
    (index = 0x015 → (s.hostWrite index value).redraw = (s.redraw && !value.getLsbD 0) ∧
      UnchangedBut [.redraw] s (s.hostWrite index value)) ∧
    (index ≠ 0x019 → index ≠ 0x015 → s.hostWrite index value = s)

/-- R263: the fields of STATUS as the host reads them. The register map is the spec's own decision D18. -/
def Obligations.StatusShowsRedrawModeAndWaitRegister : Prop :=
  ∀ s : State,
    (s.hostRead 0x015).getLsbD 0 = s.redraw ∧ (s.hostRead 0x015).getLsbD 3 = false ∧ (s.hostRead 0x015).toNat < 256 ∧
    (s.mode = .running → (s.hostRead 0x015).toNat / 2 = 0) ∧
    (∀ t : Nibble, s.mode = .awaitingKey t → (s.hostRead 0x015).toNat / 2 = 1 + 8 * t.toNat) ∧
    (s.mode = .halted → (s.hostRead 0x015).toNat / 2 = 2)

/-- R264: FB_BYTE[b] packs eight pixels of row b / 8, bit 7 leftmost. The packing is the spec's own decision D19. -/
def Obligations.FramebufferBytesPackPixelsLeftmostFirst : Prop :=
  ∀ (s : State) (cy : Fin 32) (c : Fin 8) (k : Fin 8),
    (s.hostRead (BitVec.ofNat 13 (0x100 + 8 * cy.val + c.val))).getLsbD (7 - k.val) =
      s.pixel ⟨8 * c.val + k.val, by omega⟩ cy

/-- R262: the host reads every register at its index but STATUS (`StatusShowsRedrawModeAndWaitRegister`) and the FB_BYTEs
(`FramebufferBytesPackPixelsLeftmostFirst`), and 0 at a reserved index. The register map is the spec's
own decision D18; that an index has 13 bits is log entry 10. -/
def Obligations.HostReadsEveryRegister : Prop :=
  ∀ s : State,
    (∀ r : Nibble, (s.hostRead (BitVec.ofNat 13 r.toNat)).toNat = (s.getV r).toNat) ∧
    (s.hostRead 0x010).toNat = s.i.toNat ∧ (s.hostRead 0x011).toNat = s.pc.toNat ∧
    (s.hostRead 0x012).toNat = s.sp.val ∧ (s.hostRead 0x013).toNat = s.dt.toNat ∧
    (s.hostRead 0x014).toNat = s.st.toNat ∧
    ((s.hostRead 0x016).toNat = match s.faultCause with
      | none => 0 | some .stackOverflow => 1 | some .stackUnderflow => 2 | some .pcOutOfBounds => 3
      | some .memOutOfBounds => 4 | some .keyIndexOutOfRange => 5) ∧
    (s.hostRead 0x017).toNat = s.faultPc.toNat ∧ (s.hostRead 0x018).toNat = s.faultInstr.toNat ∧
    (s.hostRead 0x019).toNat = s.keys.toNat ∧ s.hostRead 0x01A = s.lenientCount ∧
    (∀ j : Fin 16, (s.hostRead (BitVec.ofNat 13 (0x020 + j.val))).toNat = s.stack[j.val].toNat) ∧
    (∀ a : Fin 4096, (s.hostRead (BitVec.ofNat 13 (0x1000 + a.val))).toNat = (s.readByte a.val).toNat) ∧
    (∀ k : Nat, (0x01B ≤ k ∧ k ≤ 0x01F) ∨ (0x030 ≤ k ∧ k ≤ 0x0FF) ∨ (0x200 ≤ k ∧ k ≤ 0xFFF) →
      s.hostRead (BitVec.ofNat 13 k) = 0)
end

