-- ==== Sys2Proof/Laws/Decode.lean ====
section
/-! SUPPORT. The fields of an assembled word (R71, R72), layout by layout, and of any word its parts put back together. -/

namespace Sys2Proof

/-! ### Layout XKK and X: op, x, kk -/

@[simp] theorem opField_xkk (o x : Nibble) (kk : Byte) : opField (o ++ x ++ kk) = o := by
  ext i hi; simp [opField]; grind
@[simp] theorem xField_xkk (o x : Nibble) (kk : Byte) : xField (o ++ x ++ kk) = x := by
  ext i hi; simp [xField]; grind
@[simp] theorem kkField_xkk (o x : Nibble) (kk : Byte) : kkField (o ++ x ++ kk) = kk := by
  ext i hi; simp [kkField]; grind

/-! ### Layout NNN: op, nnn -/

@[simp] theorem opField_nnn (o : Nibble) (nnn : Imm12) : opField (o ++ nnn) = o := by
  ext i hi; simp [opField]; grind
@[simp] theorem nnnField_nnn (o : Nibble) (nnn : Imm12) : nnnField (o ++ nnn) = nnn := by
  ext i hi; simp [nnnField]; grind
@[simp] theorem kkField_nnn (o : Nibble) (nnn : Imm12) : kkField (o ++ nnn) = nnn.setWidth 8 := by
  ext i hi; simp [kkField]; grind
@[simp] theorem nField_nnn (o : Nibble) (nnn : Imm12) : nField (o ++ nnn) = nnn.setWidth 4 := by
  ext i hi; simp [nField]; grind

/-! ### Layout XYN and XY: op, x, y, n -/

@[simp] theorem opField_xyn (o x y n : Nibble) : opField (o ++ x ++ y ++ n) = o := by
  ext i hi; simp [opField]; grind
@[simp] theorem xField_xyn (o x y n : Nibble) : xField (o ++ x ++ y ++ n) = x := by
  ext i hi; simp [xField]; grind
@[simp] theorem yField_xyn (o x y n : Nibble) : yField (o ++ x ++ y ++ n) = y := by
  ext i hi; simp [yField]; grind
@[simp] theorem nField_xyn (o x y n : Nibble) : nField (o ++ x ++ y ++ n) = n := by
  ext i hi; simp [nField]; grind

/-! ### A word is its fields -/

theorem word_eq_nnn (w : Word) : opField w ++ nnnField w = w := by
  ext i hi; simp [opField, nnnField]; grind

theorem word_eq_xkk (w : Word) : opField w ++ xField w ++ kkField w = w := by
  ext i hi; simp [opField, xField, kkField]; grind

theorem word_eq_xyn (w : Word) : opField w ++ xField w ++ yField w ++ nField w = w := by
  ext i hi; simp [opField, xField, yField, nField]; grind

/-- The low byte of the twelve low bits is the low byte of the word. -/
theorem setWidth_nnnField_kk (w : Word) : (nnnField w).setWidth 8 = kkField w := by
  ext i hi; simp [nnnField, kkField]; omega

/-- The low nibble of the twelve low bits is the low nibble of the word. -/
theorem setWidth_nnnField_n (w : Word) : (nnnField w).setWidth 4 = nField w := by
  ext i hi; simp [nnnField, nField]; omega

/-! ### The masks of the opcode map (R83) -/

/-- Mask 0xF000 keeps the family. -/
theorem mask_family (w : Word) : w &&& 0xF000 = opField w ++ 0x000#12 := by
  ext i hi; interval_cases i <;> simp [opField] <;> grind

/-- Mask 0xF0FF keeps the family and the low byte. -/
theorem mask_family_byte (w : Word) : w &&& 0xF0FF = opField w ++ 0x0#4 ++ kkField w := by
  ext i hi; interval_cases i <;> simp [opField, kkField] <;> grind

/-- Mask 0xF00F keeps the family and the low nibble. -/
theorem mask_family_nibble (w : Word) : w &&& 0xF00F = opField w ++ 0x00#8 ++ nField w := by
  ext i hi; interval_cases i <;> simp [opField, nField] <;> grind

/-- Memory's two bytes of a word, put together again, are the word (R54). -/
@[simp] theorem wordOfBytes_bytes (w : Word) : wordOfBytes (hiByte w) (loByte w) = w := by
  ext i hi; simp [wordOfBytes, hiByte, loByte]; grind

end Sys2Proof
end

