-- ==== Sys2Proof/Laws/State.lean ====
section
/-! SUPPORT. One lemma per field per update: what each named operation over the state leaves in each field, and through the
accessors `getV`, `pixel`, `key` and `readByte`. All are true by rfl, so no proof unfolds a record update. -/

namespace Sys2Proof.Machine

/-! ### setV -/

@[simp] theorem State.setV_v (s : State) (x : Nibble) (b : Byte) : (s.setV x b).v = s.v.set x.toNat b x.isLt := rfl
@[simp] theorem State.setV_i (s : State) (x : Nibble) (b : Byte) : (s.setV x b).i = s.i := rfl
@[simp] theorem State.setV_pc (s : State) (x : Nibble) (b : Byte) : (s.setV x b).pc = s.pc := rfl
@[simp] theorem State.setV_stack (s : State) (x : Nibble) (b : Byte) : (s.setV x b).stack = s.stack := rfl
@[simp] theorem State.setV_sp (s : State) (x : Nibble) (b : Byte) : (s.setV x b).sp = s.sp := rfl
@[simp] theorem State.setV_dt (s : State) (x : Nibble) (b : Byte) : (s.setV x b).dt = s.dt := rfl
@[simp] theorem State.setV_st (s : State) (x : Nibble) (b : Byte) : (s.setV x b).st = s.st := rfl
@[simp] theorem State.setV_mem (s : State) (x : Nibble) (b : Byte) : (s.setV x b).mem = s.mem := rfl
@[simp] theorem State.setV_fb (s : State) (x : Nibble) (b : Byte) : (s.setV x b).fb = s.fb := rfl
@[simp] theorem State.setV_redraw (s : State) (x : Nibble) (b : Byte) : (s.setV x b).redraw = s.redraw := rfl
@[simp] theorem State.setV_mode (s : State) (x : Nibble) (b : Byte) : (s.setV x b).mode = s.mode := rfl
@[simp] theorem State.setV_faultCause (s : State) (x : Nibble) (b : Byte) : (s.setV x b).faultCause = s.faultCause := rfl
@[simp] theorem State.setV_faultPc (s : State) (x : Nibble) (b : Byte) : (s.setV x b).faultPc = s.faultPc := rfl
@[simp] theorem State.setV_faultInstr (s : State) (x : Nibble) (b : Byte) : (s.setV x b).faultInstr = s.faultInstr := rfl
@[simp] theorem State.setV_lenientCount (s : State) (x : Nibble) (b : Byte) : (s.setV x b).lenientCount = s.lenientCount := rfl
@[simp] theorem State.setV_keys (s : State) (x : Nibble) (b : Byte) : (s.setV x b).keys = s.keys := rfl
@[simp] theorem State.setV_cfg (s : State) (x : Nibble) (b : Byte) : (s.setV x b).cfg = s.cfg := rfl
@[simp] theorem State.setV_rand (s : State) (x : Nibble) (b : Byte) : (s.setV x b).rand = s.rand := rfl
@[simp] theorem State.setV_keyChoice (s : State) (x : Nibble) (b : Byte) : (s.setV x b).keyChoice = s.keyChoice := rfl
@[simp] theorem State.setV_drawn (s : State) (x : Nibble) (b : Byte) : (s.setV x b).drawn = s.drawn := rfl
@[simp] theorem State.setV_pixel (s : State) (x : Nibble) (b : Byte) (cx : Fin 64) (cy : Fin 32) : (s.setV x b).pixel cx cy = s.pixel cx cy := rfl
@[simp] theorem State.setV_key (s : State) (x : Nibble) (b : Byte) (k : Nibble) : (s.setV x b).key k = s.key k := rfl
@[simp] theorem State.setV_readByte (s : State) (x : Nibble) (b : Byte) (a : Nat) : (s.setV x b).readByte a = s.readByte a := rfl

/-! ### setRegs -/

@[simp] theorem State.setRegs_v (s : State) (w : Vector Byte 16) : (s.setRegs w).v = w := rfl
@[simp] theorem State.setRegs_i (s : State) (w : Vector Byte 16) : (s.setRegs w).i = s.i := rfl
@[simp] theorem State.setRegs_pc (s : State) (w : Vector Byte 16) : (s.setRegs w).pc = s.pc := rfl
@[simp] theorem State.setRegs_stack (s : State) (w : Vector Byte 16) : (s.setRegs w).stack = s.stack := rfl
@[simp] theorem State.setRegs_sp (s : State) (w : Vector Byte 16) : (s.setRegs w).sp = s.sp := rfl
@[simp] theorem State.setRegs_dt (s : State) (w : Vector Byte 16) : (s.setRegs w).dt = s.dt := rfl
@[simp] theorem State.setRegs_st (s : State) (w : Vector Byte 16) : (s.setRegs w).st = s.st := rfl
@[simp] theorem State.setRegs_mem (s : State) (w : Vector Byte 16) : (s.setRegs w).mem = s.mem := rfl
@[simp] theorem State.setRegs_fb (s : State) (w : Vector Byte 16) : (s.setRegs w).fb = s.fb := rfl
@[simp] theorem State.setRegs_redraw (s : State) (w : Vector Byte 16) : (s.setRegs w).redraw = s.redraw := rfl
@[simp] theorem State.setRegs_mode (s : State) (w : Vector Byte 16) : (s.setRegs w).mode = s.mode := rfl
@[simp] theorem State.setRegs_faultCause (s : State) (w : Vector Byte 16) : (s.setRegs w).faultCause = s.faultCause := rfl
@[simp] theorem State.setRegs_faultPc (s : State) (w : Vector Byte 16) : (s.setRegs w).faultPc = s.faultPc := rfl
@[simp] theorem State.setRegs_faultInstr (s : State) (w : Vector Byte 16) : (s.setRegs w).faultInstr = s.faultInstr := rfl
@[simp] theorem State.setRegs_lenientCount (s : State) (w : Vector Byte 16) : (s.setRegs w).lenientCount = s.lenientCount := rfl
@[simp] theorem State.setRegs_keys (s : State) (w : Vector Byte 16) : (s.setRegs w).keys = s.keys := rfl
@[simp] theorem State.setRegs_cfg (s : State) (w : Vector Byte 16) : (s.setRegs w).cfg = s.cfg := rfl
@[simp] theorem State.setRegs_rand (s : State) (w : Vector Byte 16) : (s.setRegs w).rand = s.rand := rfl
@[simp] theorem State.setRegs_keyChoice (s : State) (w : Vector Byte 16) : (s.setRegs w).keyChoice = s.keyChoice := rfl
@[simp] theorem State.setRegs_drawn (s : State) (w : Vector Byte 16) : (s.setRegs w).drawn = s.drawn := rfl
@[simp] theorem State.setRegs_pixel (s : State) (w : Vector Byte 16) (cx : Fin 64) (cy : Fin 32) : (s.setRegs w).pixel cx cy = s.pixel cx cy := rfl
@[simp] theorem State.setRegs_key (s : State) (w : Vector Byte 16) (k : Nibble) : (s.setRegs w).key k = s.key k := rfl
@[simp] theorem State.setRegs_readByte (s : State) (w : Vector Byte 16) (a : Nat) : (s.setRegs w).readByte a = s.readByte a := rfl

/-! ### setI -/

@[simp] theorem State.setI_v (s : State) (w : Word) : (s.setI w).v = s.v := rfl
@[simp] theorem State.setI_i (s : State) (w : Word) : (s.setI w).i = w := rfl
@[simp] theorem State.setI_pc (s : State) (w : Word) : (s.setI w).pc = s.pc := rfl
@[simp] theorem State.setI_stack (s : State) (w : Word) : (s.setI w).stack = s.stack := rfl
@[simp] theorem State.setI_sp (s : State) (w : Word) : (s.setI w).sp = s.sp := rfl
@[simp] theorem State.setI_dt (s : State) (w : Word) : (s.setI w).dt = s.dt := rfl
@[simp] theorem State.setI_st (s : State) (w : Word) : (s.setI w).st = s.st := rfl
@[simp] theorem State.setI_mem (s : State) (w : Word) : (s.setI w).mem = s.mem := rfl
@[simp] theorem State.setI_fb (s : State) (w : Word) : (s.setI w).fb = s.fb := rfl
@[simp] theorem State.setI_redraw (s : State) (w : Word) : (s.setI w).redraw = s.redraw := rfl
@[simp] theorem State.setI_mode (s : State) (w : Word) : (s.setI w).mode = s.mode := rfl
@[simp] theorem State.setI_faultCause (s : State) (w : Word) : (s.setI w).faultCause = s.faultCause := rfl
@[simp] theorem State.setI_faultPc (s : State) (w : Word) : (s.setI w).faultPc = s.faultPc := rfl
@[simp] theorem State.setI_faultInstr (s : State) (w : Word) : (s.setI w).faultInstr = s.faultInstr := rfl
@[simp] theorem State.setI_lenientCount (s : State) (w : Word) : (s.setI w).lenientCount = s.lenientCount := rfl
@[simp] theorem State.setI_keys (s : State) (w : Word) : (s.setI w).keys = s.keys := rfl
@[simp] theorem State.setI_cfg (s : State) (w : Word) : (s.setI w).cfg = s.cfg := rfl
@[simp] theorem State.setI_rand (s : State) (w : Word) : (s.setI w).rand = s.rand := rfl
@[simp] theorem State.setI_keyChoice (s : State) (w : Word) : (s.setI w).keyChoice = s.keyChoice := rfl
@[simp] theorem State.setI_drawn (s : State) (w : Word) : (s.setI w).drawn = s.drawn := rfl
@[simp] theorem State.setI_getV (s : State) (w : Word) (r : Nibble) : (s.setI w).getV r = s.getV r := rfl
@[simp] theorem State.setI_pixel (s : State) (w : Word) (cx : Fin 64) (cy : Fin 32) : (s.setI w).pixel cx cy = s.pixel cx cy := rfl
@[simp] theorem State.setI_key (s : State) (w : Word) (k : Nibble) : (s.setI w).key k = s.key k := rfl
@[simp] theorem State.setI_readByte (s : State) (w : Word) (a : Nat) : (s.setI w).readByte a = s.readByte a := rfl

/-! ### setDt -/

@[simp] theorem State.setDt_v (s : State) (b : Byte) : (s.setDt b).v = s.v := rfl
@[simp] theorem State.setDt_i (s : State) (b : Byte) : (s.setDt b).i = s.i := rfl
@[simp] theorem State.setDt_pc (s : State) (b : Byte) : (s.setDt b).pc = s.pc := rfl
@[simp] theorem State.setDt_stack (s : State) (b : Byte) : (s.setDt b).stack = s.stack := rfl
@[simp] theorem State.setDt_sp (s : State) (b : Byte) : (s.setDt b).sp = s.sp := rfl
@[simp] theorem State.setDt_dt (s : State) (b : Byte) : (s.setDt b).dt = b := rfl
@[simp] theorem State.setDt_st (s : State) (b : Byte) : (s.setDt b).st = s.st := rfl
@[simp] theorem State.setDt_mem (s : State) (b : Byte) : (s.setDt b).mem = s.mem := rfl
@[simp] theorem State.setDt_fb (s : State) (b : Byte) : (s.setDt b).fb = s.fb := rfl
@[simp] theorem State.setDt_redraw (s : State) (b : Byte) : (s.setDt b).redraw = s.redraw := rfl
@[simp] theorem State.setDt_mode (s : State) (b : Byte) : (s.setDt b).mode = s.mode := rfl
@[simp] theorem State.setDt_faultCause (s : State) (b : Byte) : (s.setDt b).faultCause = s.faultCause := rfl
@[simp] theorem State.setDt_faultPc (s : State) (b : Byte) : (s.setDt b).faultPc = s.faultPc := rfl
@[simp] theorem State.setDt_faultInstr (s : State) (b : Byte) : (s.setDt b).faultInstr = s.faultInstr := rfl
@[simp] theorem State.setDt_lenientCount (s : State) (b : Byte) : (s.setDt b).lenientCount = s.lenientCount := rfl
@[simp] theorem State.setDt_keys (s : State) (b : Byte) : (s.setDt b).keys = s.keys := rfl
@[simp] theorem State.setDt_cfg (s : State) (b : Byte) : (s.setDt b).cfg = s.cfg := rfl
@[simp] theorem State.setDt_rand (s : State) (b : Byte) : (s.setDt b).rand = s.rand := rfl
@[simp] theorem State.setDt_keyChoice (s : State) (b : Byte) : (s.setDt b).keyChoice = s.keyChoice := rfl
@[simp] theorem State.setDt_drawn (s : State) (b : Byte) : (s.setDt b).drawn = s.drawn := rfl
@[simp] theorem State.setDt_getV (s : State) (b : Byte) (r : Nibble) : (s.setDt b).getV r = s.getV r := rfl
@[simp] theorem State.setDt_pixel (s : State) (b : Byte) (cx : Fin 64) (cy : Fin 32) : (s.setDt b).pixel cx cy = s.pixel cx cy := rfl
@[simp] theorem State.setDt_key (s : State) (b : Byte) (k : Nibble) : (s.setDt b).key k = s.key k := rfl
@[simp] theorem State.setDt_readByte (s : State) (b : Byte) (a : Nat) : (s.setDt b).readByte a = s.readByte a := rfl

/-! ### setSt -/

@[simp] theorem State.setSt_v (s : State) (b : Byte) : (s.setSt b).v = s.v := rfl
@[simp] theorem State.setSt_i (s : State) (b : Byte) : (s.setSt b).i = s.i := rfl
@[simp] theorem State.setSt_pc (s : State) (b : Byte) : (s.setSt b).pc = s.pc := rfl
@[simp] theorem State.setSt_stack (s : State) (b : Byte) : (s.setSt b).stack = s.stack := rfl
@[simp] theorem State.setSt_sp (s : State) (b : Byte) : (s.setSt b).sp = s.sp := rfl
@[simp] theorem State.setSt_dt (s : State) (b : Byte) : (s.setSt b).dt = s.dt := rfl
@[simp] theorem State.setSt_st (s : State) (b : Byte) : (s.setSt b).st = b := rfl
@[simp] theorem State.setSt_mem (s : State) (b : Byte) : (s.setSt b).mem = s.mem := rfl
@[simp] theorem State.setSt_fb (s : State) (b : Byte) : (s.setSt b).fb = s.fb := rfl
@[simp] theorem State.setSt_redraw (s : State) (b : Byte) : (s.setSt b).redraw = s.redraw := rfl
@[simp] theorem State.setSt_mode (s : State) (b : Byte) : (s.setSt b).mode = s.mode := rfl
@[simp] theorem State.setSt_faultCause (s : State) (b : Byte) : (s.setSt b).faultCause = s.faultCause := rfl
@[simp] theorem State.setSt_faultPc (s : State) (b : Byte) : (s.setSt b).faultPc = s.faultPc := rfl
@[simp] theorem State.setSt_faultInstr (s : State) (b : Byte) : (s.setSt b).faultInstr = s.faultInstr := rfl
@[simp] theorem State.setSt_lenientCount (s : State) (b : Byte) : (s.setSt b).lenientCount = s.lenientCount := rfl
@[simp] theorem State.setSt_keys (s : State) (b : Byte) : (s.setSt b).keys = s.keys := rfl
@[simp] theorem State.setSt_cfg (s : State) (b : Byte) : (s.setSt b).cfg = s.cfg := rfl
@[simp] theorem State.setSt_rand (s : State) (b : Byte) : (s.setSt b).rand = s.rand := rfl
@[simp] theorem State.setSt_keyChoice (s : State) (b : Byte) : (s.setSt b).keyChoice = s.keyChoice := rfl
@[simp] theorem State.setSt_drawn (s : State) (b : Byte) : (s.setSt b).drawn = s.drawn := rfl
@[simp] theorem State.setSt_getV (s : State) (b : Byte) (r : Nibble) : (s.setSt b).getV r = s.getV r := rfl
@[simp] theorem State.setSt_pixel (s : State) (b : Byte) (cx : Fin 64) (cy : Fin 32) : (s.setSt b).pixel cx cy = s.pixel cx cy := rfl
@[simp] theorem State.setSt_key (s : State) (b : Byte) (k : Nibble) : (s.setSt b).key k = s.key k := rfl
@[simp] theorem State.setSt_readByte (s : State) (b : Byte) (a : Nat) : (s.setSt b).readByte a = s.readByte a := rfl

/-! ### goto -/

@[simp] theorem State.goto_v (s : State) (w : Word) : (s.goto w).v = s.v := rfl
@[simp] theorem State.goto_i (s : State) (w : Word) : (s.goto w).i = s.i := rfl
@[simp] theorem State.goto_pc (s : State) (w : Word) : (s.goto w).pc = w := rfl
@[simp] theorem State.goto_stack (s : State) (w : Word) : (s.goto w).stack = s.stack := rfl
@[simp] theorem State.goto_sp (s : State) (w : Word) : (s.goto w).sp = s.sp := rfl
@[simp] theorem State.goto_dt (s : State) (w : Word) : (s.goto w).dt = s.dt := rfl
@[simp] theorem State.goto_st (s : State) (w : Word) : (s.goto w).st = s.st := rfl
@[simp] theorem State.goto_mem (s : State) (w : Word) : (s.goto w).mem = s.mem := rfl
@[simp] theorem State.goto_fb (s : State) (w : Word) : (s.goto w).fb = s.fb := rfl
@[simp] theorem State.goto_redraw (s : State) (w : Word) : (s.goto w).redraw = s.redraw := rfl
@[simp] theorem State.goto_mode (s : State) (w : Word) : (s.goto w).mode = s.mode := rfl
@[simp] theorem State.goto_faultCause (s : State) (w : Word) : (s.goto w).faultCause = s.faultCause := rfl
@[simp] theorem State.goto_faultPc (s : State) (w : Word) : (s.goto w).faultPc = s.faultPc := rfl
@[simp] theorem State.goto_faultInstr (s : State) (w : Word) : (s.goto w).faultInstr = s.faultInstr := rfl
@[simp] theorem State.goto_lenientCount (s : State) (w : Word) : (s.goto w).lenientCount = s.lenientCount := rfl
@[simp] theorem State.goto_keys (s : State) (w : Word) : (s.goto w).keys = s.keys := rfl
@[simp] theorem State.goto_cfg (s : State) (w : Word) : (s.goto w).cfg = s.cfg := rfl
@[simp] theorem State.goto_rand (s : State) (w : Word) : (s.goto w).rand = s.rand := rfl
@[simp] theorem State.goto_keyChoice (s : State) (w : Word) : (s.goto w).keyChoice = s.keyChoice := rfl
@[simp] theorem State.goto_drawn (s : State) (w : Word) : (s.goto w).drawn = s.drawn := rfl
@[simp] theorem State.goto_getV (s : State) (w : Word) (r : Nibble) : (s.goto w).getV r = s.getV r := rfl
@[simp] theorem State.goto_pixel (s : State) (w : Word) (cx : Fin 64) (cy : Fin 32) : (s.goto w).pixel cx cy = s.pixel cx cy := rfl
@[simp] theorem State.goto_key (s : State) (w : Word) (k : Nibble) : (s.goto w).key k = s.key k := rfl
@[simp] theorem State.goto_readByte (s : State) (w : Word) (a : Nat) : (s.goto w).readByte a = s.readByte a := rfl

/-! ### advance -/

@[simp] theorem State.advance_v (s : State) : (s.advance).v = s.v := rfl
@[simp] theorem State.advance_i (s : State) : (s.advance).i = s.i := rfl
@[simp] theorem State.advance_pc (s : State) : (s.advance).pc = s.pc + 2 := rfl
@[simp] theorem State.advance_stack (s : State) : (s.advance).stack = s.stack := rfl
@[simp] theorem State.advance_sp (s : State) : (s.advance).sp = s.sp := rfl
@[simp] theorem State.advance_dt (s : State) : (s.advance).dt = s.dt := rfl
@[simp] theorem State.advance_st (s : State) : (s.advance).st = s.st := rfl
@[simp] theorem State.advance_mem (s : State) : (s.advance).mem = s.mem := rfl
@[simp] theorem State.advance_fb (s : State) : (s.advance).fb = s.fb := rfl
@[simp] theorem State.advance_redraw (s : State) : (s.advance).redraw = s.redraw := rfl
@[simp] theorem State.advance_mode (s : State) : (s.advance).mode = s.mode := rfl
@[simp] theorem State.advance_faultCause (s : State) : (s.advance).faultCause = s.faultCause := rfl
@[simp] theorem State.advance_faultPc (s : State) : (s.advance).faultPc = s.faultPc := rfl
@[simp] theorem State.advance_faultInstr (s : State) : (s.advance).faultInstr = s.faultInstr := rfl
@[simp] theorem State.advance_lenientCount (s : State) : (s.advance).lenientCount = s.lenientCount := rfl
@[simp] theorem State.advance_keys (s : State) : (s.advance).keys = s.keys := rfl
@[simp] theorem State.advance_cfg (s : State) : (s.advance).cfg = s.cfg := rfl
@[simp] theorem State.advance_rand (s : State) : (s.advance).rand = s.rand := rfl
@[simp] theorem State.advance_keyChoice (s : State) : (s.advance).keyChoice = s.keyChoice := rfl
@[simp] theorem State.advance_drawn (s : State) : (s.advance).drawn = s.drawn := rfl
@[simp] theorem State.advance_getV (s : State) (r : Nibble) : (s.advance).getV r = s.getV r := rfl
@[simp] theorem State.advance_pixel (s : State) (cx : Fin 64) (cy : Fin 32) : (s.advance).pixel cx cy = s.pixel cx cy := rfl
@[simp] theorem State.advance_key (s : State) (k : Nibble) : (s.advance).key k = s.key k := rfl
@[simp] theorem State.advance_readByte (s : State) (a : Nat) : (s.advance).readByte a = s.readByte a := rfl

/-! ### skipIf -/

@[simp] theorem State.skipIf_v (s : State) (c : Bool) : (s.skipIf c).v = s.v := rfl
@[simp] theorem State.skipIf_i (s : State) (c : Bool) : (s.skipIf c).i = s.i := rfl
@[simp] theorem State.skipIf_pc (s : State) (c : Bool) : (s.skipIf c).pc = if c then s.pc + 4 else s.pc + 2 := rfl
@[simp] theorem State.skipIf_stack (s : State) (c : Bool) : (s.skipIf c).stack = s.stack := rfl
@[simp] theorem State.skipIf_sp (s : State) (c : Bool) : (s.skipIf c).sp = s.sp := rfl
@[simp] theorem State.skipIf_dt (s : State) (c : Bool) : (s.skipIf c).dt = s.dt := rfl
@[simp] theorem State.skipIf_st (s : State) (c : Bool) : (s.skipIf c).st = s.st := rfl
@[simp] theorem State.skipIf_mem (s : State) (c : Bool) : (s.skipIf c).mem = s.mem := rfl
@[simp] theorem State.skipIf_fb (s : State) (c : Bool) : (s.skipIf c).fb = s.fb := rfl
@[simp] theorem State.skipIf_redraw (s : State) (c : Bool) : (s.skipIf c).redraw = s.redraw := rfl
@[simp] theorem State.skipIf_mode (s : State) (c : Bool) : (s.skipIf c).mode = s.mode := rfl
@[simp] theorem State.skipIf_faultCause (s : State) (c : Bool) : (s.skipIf c).faultCause = s.faultCause := rfl
@[simp] theorem State.skipIf_faultPc (s : State) (c : Bool) : (s.skipIf c).faultPc = s.faultPc := rfl
@[simp] theorem State.skipIf_faultInstr (s : State) (c : Bool) : (s.skipIf c).faultInstr = s.faultInstr := rfl
@[simp] theorem State.skipIf_lenientCount (s : State) (c : Bool) : (s.skipIf c).lenientCount = s.lenientCount := rfl
@[simp] theorem State.skipIf_keys (s : State) (c : Bool) : (s.skipIf c).keys = s.keys := rfl
@[simp] theorem State.skipIf_cfg (s : State) (c : Bool) : (s.skipIf c).cfg = s.cfg := rfl
@[simp] theorem State.skipIf_rand (s : State) (c : Bool) : (s.skipIf c).rand = s.rand := rfl
@[simp] theorem State.skipIf_keyChoice (s : State) (c : Bool) : (s.skipIf c).keyChoice = s.keyChoice := rfl
@[simp] theorem State.skipIf_drawn (s : State) (c : Bool) : (s.skipIf c).drawn = s.drawn := rfl
@[simp] theorem State.skipIf_getV (s : State) (c : Bool) (r : Nibble) : (s.skipIf c).getV r = s.getV r := rfl
@[simp] theorem State.skipIf_pixel (s : State) (c : Bool) (cx : Fin 64) (cy : Fin 32) : (s.skipIf c).pixel cx cy = s.pixel cx cy := rfl
@[simp] theorem State.skipIf_key (s : State) (c : Bool) (k : Nibble) : (s.skipIf c).key k = s.key k := rfl
@[simp] theorem State.skipIf_readByte (s : State) (c : Bool) (a : Nat) : (s.skipIf c).readByte a = s.readByte a := rfl

/-! ### push -/

@[simp] theorem State.push_v (s : State) (w : Word) (h : s.sp.val < 16) : (s.push w h).v = s.v := rfl
@[simp] theorem State.push_i (s : State) (w : Word) (h : s.sp.val < 16) : (s.push w h).i = s.i := rfl
@[simp] theorem State.push_pc (s : State) (w : Word) (h : s.sp.val < 16) : (s.push w h).pc = s.pc := rfl
@[simp] theorem State.push_stack (s : State) (w : Word) (h : s.sp.val < 16) : (s.push w h).stack = s.stack.set s.sp.val w h := rfl
@[simp] theorem State.push_sp (s : State) (w : Word) (h : s.sp.val < 16) : (s.push w h).sp = ⟨s.sp.val + 1, Nat.succ_lt_succ h⟩ := rfl
@[simp] theorem State.push_dt (s : State) (w : Word) (h : s.sp.val < 16) : (s.push w h).dt = s.dt := rfl
@[simp] theorem State.push_st (s : State) (w : Word) (h : s.sp.val < 16) : (s.push w h).st = s.st := rfl
@[simp] theorem State.push_mem (s : State) (w : Word) (h : s.sp.val < 16) : (s.push w h).mem = s.mem := rfl
@[simp] theorem State.push_fb (s : State) (w : Word) (h : s.sp.val < 16) : (s.push w h).fb = s.fb := rfl
@[simp] theorem State.push_redraw (s : State) (w : Word) (h : s.sp.val < 16) : (s.push w h).redraw = s.redraw := rfl
@[simp] theorem State.push_mode (s : State) (w : Word) (h : s.sp.val < 16) : (s.push w h).mode = s.mode := rfl
@[simp] theorem State.push_faultCause (s : State) (w : Word) (h : s.sp.val < 16) : (s.push w h).faultCause = s.faultCause := rfl
@[simp] theorem State.push_faultPc (s : State) (w : Word) (h : s.sp.val < 16) : (s.push w h).faultPc = s.faultPc := rfl
@[simp] theorem State.push_faultInstr (s : State) (w : Word) (h : s.sp.val < 16) : (s.push w h).faultInstr = s.faultInstr := rfl
@[simp] theorem State.push_lenientCount (s : State) (w : Word) (h : s.sp.val < 16) : (s.push w h).lenientCount = s.lenientCount := rfl
@[simp] theorem State.push_keys (s : State) (w : Word) (h : s.sp.val < 16) : (s.push w h).keys = s.keys := rfl
@[simp] theorem State.push_cfg (s : State) (w : Word) (h : s.sp.val < 16) : (s.push w h).cfg = s.cfg := rfl
@[simp] theorem State.push_rand (s : State) (w : Word) (h : s.sp.val < 16) : (s.push w h).rand = s.rand := rfl
@[simp] theorem State.push_keyChoice (s : State) (w : Word) (h : s.sp.val < 16) : (s.push w h).keyChoice = s.keyChoice := rfl
@[simp] theorem State.push_drawn (s : State) (w : Word) (h : s.sp.val < 16) : (s.push w h).drawn = s.drawn := rfl
@[simp] theorem State.push_getV (s : State) (w : Word) (h : s.sp.val < 16) (r : Nibble) : (s.push w h).getV r = s.getV r := rfl
@[simp] theorem State.push_pixel (s : State) (w : Word) (h : s.sp.val < 16) (cx : Fin 64) (cy : Fin 32) : (s.push w h).pixel cx cy = s.pixel cx cy := rfl
@[simp] theorem State.push_key (s : State) (w : Word) (h : s.sp.val < 16) (k : Nibble) : (s.push w h).key k = s.key k := rfl
@[simp] theorem State.push_readByte (s : State) (w : Word) (h : s.sp.val < 16) (a : Nat) : (s.push w h).readByte a = s.readByte a := rfl

/-! ### drop -/

@[simp] theorem State.drop_v (s : State) : (s.drop).v = s.v := rfl
@[simp] theorem State.drop_i (s : State) : (s.drop).i = s.i := rfl
@[simp] theorem State.drop_pc (s : State) : (s.drop).pc = s.pc := rfl
@[simp] theorem State.drop_stack (s : State) : (s.drop).stack = s.stack := rfl
@[simp] theorem State.drop_sp (s : State) : (s.drop).sp = ⟨s.sp.val - 1, by have := s.sp.isLt; omega⟩ := rfl
@[simp] theorem State.drop_dt (s : State) : (s.drop).dt = s.dt := rfl
@[simp] theorem State.drop_st (s : State) : (s.drop).st = s.st := rfl
@[simp] theorem State.drop_mem (s : State) : (s.drop).mem = s.mem := rfl
@[simp] theorem State.drop_fb (s : State) : (s.drop).fb = s.fb := rfl
@[simp] theorem State.drop_redraw (s : State) : (s.drop).redraw = s.redraw := rfl
@[simp] theorem State.drop_mode (s : State) : (s.drop).mode = s.mode := rfl
@[simp] theorem State.drop_faultCause (s : State) : (s.drop).faultCause = s.faultCause := rfl
@[simp] theorem State.drop_faultPc (s : State) : (s.drop).faultPc = s.faultPc := rfl
@[simp] theorem State.drop_faultInstr (s : State) : (s.drop).faultInstr = s.faultInstr := rfl
@[simp] theorem State.drop_lenientCount (s : State) : (s.drop).lenientCount = s.lenientCount := rfl
@[simp] theorem State.drop_keys (s : State) : (s.drop).keys = s.keys := rfl
@[simp] theorem State.drop_cfg (s : State) : (s.drop).cfg = s.cfg := rfl
@[simp] theorem State.drop_rand (s : State) : (s.drop).rand = s.rand := rfl
@[simp] theorem State.drop_keyChoice (s : State) : (s.drop).keyChoice = s.keyChoice := rfl
@[simp] theorem State.drop_drawn (s : State) : (s.drop).drawn = s.drawn := rfl
@[simp] theorem State.drop_getV (s : State) (r : Nibble) : (s.drop).getV r = s.getV r := rfl
@[simp] theorem State.drop_pixel (s : State) (cx : Fin 64) (cy : Fin 32) : (s.drop).pixel cx cy = s.pixel cx cy := rfl
@[simp] theorem State.drop_key (s : State) (k : Nibble) : (s.drop).key k = s.key k := rfl
@[simp] theorem State.drop_readByte (s : State) (a : Nat) : (s.drop).readByte a = s.readByte a := rfl

/-! ### show -/

@[simp] theorem State.show_v (s : State) (f : Framebuffer) : (s.show f).v = s.v := rfl
@[simp] theorem State.show_i (s : State) (f : Framebuffer) : (s.show f).i = s.i := rfl
@[simp] theorem State.show_pc (s : State) (f : Framebuffer) : (s.show f).pc = s.pc := rfl
@[simp] theorem State.show_stack (s : State) (f : Framebuffer) : (s.show f).stack = s.stack := rfl
@[simp] theorem State.show_sp (s : State) (f : Framebuffer) : (s.show f).sp = s.sp := rfl
@[simp] theorem State.show_dt (s : State) (f : Framebuffer) : (s.show f).dt = s.dt := rfl
@[simp] theorem State.show_st (s : State) (f : Framebuffer) : (s.show f).st = s.st := rfl
@[simp] theorem State.show_mem (s : State) (f : Framebuffer) : (s.show f).mem = s.mem := rfl
@[simp] theorem State.show_fb (s : State) (f : Framebuffer) : (s.show f).fb = f := rfl
@[simp] theorem State.show_redraw (s : State) (f : Framebuffer) : (s.show f).redraw = true := rfl
@[simp] theorem State.show_mode (s : State) (f : Framebuffer) : (s.show f).mode = s.mode := rfl
@[simp] theorem State.show_faultCause (s : State) (f : Framebuffer) : (s.show f).faultCause = s.faultCause := rfl
@[simp] theorem State.show_faultPc (s : State) (f : Framebuffer) : (s.show f).faultPc = s.faultPc := rfl
@[simp] theorem State.show_faultInstr (s : State) (f : Framebuffer) : (s.show f).faultInstr = s.faultInstr := rfl
@[simp] theorem State.show_lenientCount (s : State) (f : Framebuffer) : (s.show f).lenientCount = s.lenientCount := rfl
@[simp] theorem State.show_keys (s : State) (f : Framebuffer) : (s.show f).keys = s.keys := rfl
@[simp] theorem State.show_cfg (s : State) (f : Framebuffer) : (s.show f).cfg = s.cfg := rfl
@[simp] theorem State.show_rand (s : State) (f : Framebuffer) : (s.show f).rand = s.rand := rfl
@[simp] theorem State.show_keyChoice (s : State) (f : Framebuffer) : (s.show f).keyChoice = s.keyChoice := rfl
@[simp] theorem State.show_drawn (s : State) (f : Framebuffer) : (s.show f).drawn = s.drawn := rfl
@[simp] theorem State.show_getV (s : State) (f : Framebuffer) (r : Nibble) : (s.show f).getV r = s.getV r := rfl
@[simp] theorem State.show_key (s : State) (f : Framebuffer) (k : Nibble) : (s.show f).key k = s.key k := rfl
@[simp] theorem State.show_readByte (s : State) (f : Framebuffer) (a : Nat) : (s.show f).readByte a = s.readByte a := rfl

/-! ### afterRand -/

@[simp] theorem State.afterRand_v (s : State) : (s.afterRand).v = s.v := rfl
@[simp] theorem State.afterRand_i (s : State) : (s.afterRand).i = s.i := rfl
@[simp] theorem State.afterRand_pc (s : State) : (s.afterRand).pc = s.pc := rfl
@[simp] theorem State.afterRand_stack (s : State) : (s.afterRand).stack = s.stack := rfl
@[simp] theorem State.afterRand_sp (s : State) : (s.afterRand).sp = s.sp := rfl
@[simp] theorem State.afterRand_dt (s : State) : (s.afterRand).dt = s.dt := rfl
@[simp] theorem State.afterRand_st (s : State) : (s.afterRand).st = s.st := rfl
@[simp] theorem State.afterRand_mem (s : State) : (s.afterRand).mem = s.mem := rfl
@[simp] theorem State.afterRand_fb (s : State) : (s.afterRand).fb = s.fb := rfl
@[simp] theorem State.afterRand_redraw (s : State) : (s.afterRand).redraw = s.redraw := rfl
@[simp] theorem State.afterRand_mode (s : State) : (s.afterRand).mode = s.mode := rfl
@[simp] theorem State.afterRand_faultCause (s : State) : (s.afterRand).faultCause = s.faultCause := rfl
@[simp] theorem State.afterRand_faultPc (s : State) : (s.afterRand).faultPc = s.faultPc := rfl
@[simp] theorem State.afterRand_faultInstr (s : State) : (s.afterRand).faultInstr = s.faultInstr := rfl
@[simp] theorem State.afterRand_lenientCount (s : State) : (s.afterRand).lenientCount = s.lenientCount := rfl
@[simp] theorem State.afterRand_keys (s : State) : (s.afterRand).keys = s.keys := rfl
@[simp] theorem State.afterRand_cfg (s : State) : (s.afterRand).cfg = s.cfg := rfl
@[simp] theorem State.afterRand_rand (s : State) : (s.afterRand).rand = Config.freeRand s.drawn := rfl
@[simp] theorem State.afterRand_keyChoice (s : State) : (s.afterRand).keyChoice = s.keyChoice := rfl
@[simp] theorem State.afterRand_drawn (s : State) : (s.afterRand).drawn = s.drawn + 1 := rfl
@[simp] theorem State.afterRand_getV (s : State) (r : Nibble) : (s.afterRand).getV r = s.getV r := rfl
@[simp] theorem State.afterRand_pixel (s : State) (cx : Fin 64) (cy : Fin 32) : (s.afterRand).pixel cx cy = s.pixel cx cy := rfl
@[simp] theorem State.afterRand_key (s : State) (k : Nibble) : (s.afterRand).key k = s.key k := rfl
@[simp] theorem State.afterRand_readByte (s : State) (a : Nat) : (s.afterRand).readByte a = s.readByte a := rfl

/-! ### afterKeyChoice -/

@[simp] theorem State.afterKeyChoice_v (s : State) : (s.afterKeyChoice).v = s.v := rfl
@[simp] theorem State.afterKeyChoice_i (s : State) : (s.afterKeyChoice).i = s.i := rfl
@[simp] theorem State.afterKeyChoice_pc (s : State) : (s.afterKeyChoice).pc = s.pc := rfl
@[simp] theorem State.afterKeyChoice_stack (s : State) : (s.afterKeyChoice).stack = s.stack := rfl
@[simp] theorem State.afterKeyChoice_sp (s : State) : (s.afterKeyChoice).sp = s.sp := rfl
@[simp] theorem State.afterKeyChoice_dt (s : State) : (s.afterKeyChoice).dt = s.dt := rfl
@[simp] theorem State.afterKeyChoice_st (s : State) : (s.afterKeyChoice).st = s.st := rfl
@[simp] theorem State.afterKeyChoice_mem (s : State) : (s.afterKeyChoice).mem = s.mem := rfl
@[simp] theorem State.afterKeyChoice_fb (s : State) : (s.afterKeyChoice).fb = s.fb := rfl
@[simp] theorem State.afterKeyChoice_redraw (s : State) : (s.afterKeyChoice).redraw = s.redraw := rfl
@[simp] theorem State.afterKeyChoice_mode (s : State) : (s.afterKeyChoice).mode = s.mode := rfl
@[simp] theorem State.afterKeyChoice_faultCause (s : State) : (s.afterKeyChoice).faultCause = s.faultCause := rfl
@[simp] theorem State.afterKeyChoice_faultPc (s : State) : (s.afterKeyChoice).faultPc = s.faultPc := rfl
@[simp] theorem State.afterKeyChoice_faultInstr (s : State) : (s.afterKeyChoice).faultInstr = s.faultInstr := rfl
@[simp] theorem State.afterKeyChoice_lenientCount (s : State) : (s.afterKeyChoice).lenientCount = s.lenientCount := rfl
@[simp] theorem State.afterKeyChoice_keys (s : State) : (s.afterKeyChoice).keys = s.keys := rfl
@[simp] theorem State.afterKeyChoice_cfg (s : State) : (s.afterKeyChoice).cfg = s.cfg := rfl
@[simp] theorem State.afterKeyChoice_rand (s : State) : (s.afterKeyChoice).rand = s.rand := rfl
@[simp] theorem State.afterKeyChoice_keyChoice (s : State) : (s.afterKeyChoice).keyChoice = Config.freeKeyChoice s.drawn := rfl
@[simp] theorem State.afterKeyChoice_drawn (s : State) : (s.afterKeyChoice).drawn = s.drawn + 1 := rfl
@[simp] theorem State.afterKeyChoice_getV (s : State) (r : Nibble) : (s.afterKeyChoice).getV r = s.getV r := rfl
@[simp] theorem State.afterKeyChoice_pixel (s : State) (cx : Fin 64) (cy : Fin 32) : (s.afterKeyChoice).pixel cx cy = s.pixel cx cy := rfl
@[simp] theorem State.afterKeyChoice_key (s : State) (k : Nibble) : (s.afterKeyChoice).key k = s.key k := rfl
@[simp] theorem State.afterKeyChoice_readByte (s : State) (a : Nat) : (s.afterKeyChoice).readByte a = s.readByte a := rfl

/-! ### captureKey -/

@[simp] theorem State.captureKey_v (s : State) (x : Nibble) : (s.captureKey x).v = s.v.set x.toNat ((pickKey s.keys s.keyChoice).setWidth 8) x.isLt := rfl
@[simp] theorem State.captureKey_i (s : State) (x : Nibble) : (s.captureKey x).i = s.i := rfl
@[simp] theorem State.captureKey_pc (s : State) (x : Nibble) : (s.captureKey x).pc = s.pc := rfl
@[simp] theorem State.captureKey_stack (s : State) (x : Nibble) : (s.captureKey x).stack = s.stack := rfl
@[simp] theorem State.captureKey_sp (s : State) (x : Nibble) : (s.captureKey x).sp = s.sp := rfl
@[simp] theorem State.captureKey_dt (s : State) (x : Nibble) : (s.captureKey x).dt = s.dt := rfl
@[simp] theorem State.captureKey_st (s : State) (x : Nibble) : (s.captureKey x).st = s.st := rfl
@[simp] theorem State.captureKey_mem (s : State) (x : Nibble) : (s.captureKey x).mem = s.mem := rfl
@[simp] theorem State.captureKey_fb (s : State) (x : Nibble) : (s.captureKey x).fb = s.fb := rfl
@[simp] theorem State.captureKey_redraw (s : State) (x : Nibble) : (s.captureKey x).redraw = s.redraw := rfl
@[simp] theorem State.captureKey_mode (s : State) (x : Nibble) : (s.captureKey x).mode = s.mode := rfl
@[simp] theorem State.captureKey_faultCause (s : State) (x : Nibble) : (s.captureKey x).faultCause = s.faultCause := rfl
@[simp] theorem State.captureKey_faultPc (s : State) (x : Nibble) : (s.captureKey x).faultPc = s.faultPc := rfl
@[simp] theorem State.captureKey_faultInstr (s : State) (x : Nibble) : (s.captureKey x).faultInstr = s.faultInstr := rfl
@[simp] theorem State.captureKey_lenientCount (s : State) (x : Nibble) : (s.captureKey x).lenientCount = s.lenientCount := rfl
@[simp] theorem State.captureKey_keys (s : State) (x : Nibble) : (s.captureKey x).keys = s.keys := rfl
@[simp] theorem State.captureKey_cfg (s : State) (x : Nibble) : (s.captureKey x).cfg = s.cfg := rfl
@[simp] theorem State.captureKey_rand (s : State) (x : Nibble) : (s.captureKey x).rand = s.rand := rfl
@[simp] theorem State.captureKey_keyChoice (s : State) (x : Nibble) : (s.captureKey x).keyChoice = Config.freeKeyChoice s.drawn := rfl
@[simp] theorem State.captureKey_drawn (s : State) (x : Nibble) : (s.captureKey x).drawn = s.drawn + 1 := rfl
@[simp] theorem State.captureKey_pixel (s : State) (x : Nibble) (cx : Fin 64) (cy : Fin 32) : (s.captureKey x).pixel cx cy = s.pixel cx cy := rfl
@[simp] theorem State.captureKey_key (s : State) (x : Nibble) (k : Nibble) : (s.captureKey x).key k = s.key k := rfl
@[simp] theorem State.captureKey_readByte (s : State) (x : Nibble) (a : Nat) : (s.captureKey x).readByte a = s.readByte a := rfl

/-! ### setMode -/

@[simp] theorem State.setMode_v (s : State) (m : Mode) : (s.setMode m).v = s.v := rfl
@[simp] theorem State.setMode_i (s : State) (m : Mode) : (s.setMode m).i = s.i := rfl
@[simp] theorem State.setMode_pc (s : State) (m : Mode) : (s.setMode m).pc = s.pc := rfl
@[simp] theorem State.setMode_stack (s : State) (m : Mode) : (s.setMode m).stack = s.stack := rfl
@[simp] theorem State.setMode_sp (s : State) (m : Mode) : (s.setMode m).sp = s.sp := rfl
@[simp] theorem State.setMode_dt (s : State) (m : Mode) : (s.setMode m).dt = s.dt := rfl
@[simp] theorem State.setMode_st (s : State) (m : Mode) : (s.setMode m).st = s.st := rfl
@[simp] theorem State.setMode_mem (s : State) (m : Mode) : (s.setMode m).mem = s.mem := rfl
@[simp] theorem State.setMode_fb (s : State) (m : Mode) : (s.setMode m).fb = s.fb := rfl
@[simp] theorem State.setMode_redraw (s : State) (m : Mode) : (s.setMode m).redraw = s.redraw := rfl
@[simp] theorem State.setMode_mode (s : State) (m : Mode) : (s.setMode m).mode = m := rfl
@[simp] theorem State.setMode_faultCause (s : State) (m : Mode) : (s.setMode m).faultCause = s.faultCause := rfl
@[simp] theorem State.setMode_faultPc (s : State) (m : Mode) : (s.setMode m).faultPc = s.faultPc := rfl
@[simp] theorem State.setMode_faultInstr (s : State) (m : Mode) : (s.setMode m).faultInstr = s.faultInstr := rfl
@[simp] theorem State.setMode_lenientCount (s : State) (m : Mode) : (s.setMode m).lenientCount = s.lenientCount := rfl
@[simp] theorem State.setMode_keys (s : State) (m : Mode) : (s.setMode m).keys = s.keys := rfl
@[simp] theorem State.setMode_cfg (s : State) (m : Mode) : (s.setMode m).cfg = s.cfg := rfl
@[simp] theorem State.setMode_rand (s : State) (m : Mode) : (s.setMode m).rand = s.rand := rfl
@[simp] theorem State.setMode_keyChoice (s : State) (m : Mode) : (s.setMode m).keyChoice = s.keyChoice := rfl
@[simp] theorem State.setMode_drawn (s : State) (m : Mode) : (s.setMode m).drawn = s.drawn := rfl
@[simp] theorem State.setMode_getV (s : State) (m : Mode) (r : Nibble) : (s.setMode m).getV r = s.getV r := rfl
@[simp] theorem State.setMode_pixel (s : State) (m : Mode) (cx : Fin 64) (cy : Fin 32) : (s.setMode m).pixel cx cy = s.pixel cx cy := rfl
@[simp] theorem State.setMode_key (s : State) (m : Mode) (k : Nibble) : (s.setMode m).key k = s.key k := rfl
@[simp] theorem State.setMode_readByte (s : State) (m : Mode) (a : Nat) : (s.setMode m).readByte a = s.readByte a := rfl

/-! ### countLenient -/

@[simp] theorem State.countLenient_v (s : State) : (s.countLenient).v = s.v := rfl
@[simp] theorem State.countLenient_i (s : State) : (s.countLenient).i = s.i := rfl
@[simp] theorem State.countLenient_pc (s : State) : (s.countLenient).pc = s.pc := rfl
@[simp] theorem State.countLenient_stack (s : State) : (s.countLenient).stack = s.stack := rfl
@[simp] theorem State.countLenient_sp (s : State) : (s.countLenient).sp = s.sp := rfl
@[simp] theorem State.countLenient_dt (s : State) : (s.countLenient).dt = s.dt := rfl
@[simp] theorem State.countLenient_st (s : State) : (s.countLenient).st = s.st := rfl
@[simp] theorem State.countLenient_mem (s : State) : (s.countLenient).mem = s.mem := rfl
@[simp] theorem State.countLenient_fb (s : State) : (s.countLenient).fb = s.fb := rfl
@[simp] theorem State.countLenient_redraw (s : State) : (s.countLenient).redraw = s.redraw := rfl
@[simp] theorem State.countLenient_mode (s : State) : (s.countLenient).mode = s.mode := rfl
@[simp] theorem State.countLenient_faultCause (s : State) : (s.countLenient).faultCause = s.faultCause := rfl
@[simp] theorem State.countLenient_faultPc (s : State) : (s.countLenient).faultPc = s.faultPc := rfl
@[simp] theorem State.countLenient_faultInstr (s : State) : (s.countLenient).faultInstr = s.faultInstr := rfl
@[simp] theorem State.countLenient_lenientCount (s : State) : (s.countLenient).lenientCount = s.lenientCount + 1 := rfl
@[simp] theorem State.countLenient_keys (s : State) : (s.countLenient).keys = s.keys := rfl
@[simp] theorem State.countLenient_cfg (s : State) : (s.countLenient).cfg = s.cfg := rfl
@[simp] theorem State.countLenient_rand (s : State) : (s.countLenient).rand = s.rand := rfl
@[simp] theorem State.countLenient_keyChoice (s : State) : (s.countLenient).keyChoice = s.keyChoice := rfl
@[simp] theorem State.countLenient_drawn (s : State) : (s.countLenient).drawn = s.drawn := rfl
@[simp] theorem State.countLenient_getV (s : State) (r : Nibble) : (s.countLenient).getV r = s.getV r := rfl
@[simp] theorem State.countLenient_pixel (s : State) (cx : Fin 64) (cy : Fin 32) : (s.countLenient).pixel cx cy = s.pixel cx cy := rfl
@[simp] theorem State.countLenient_key (s : State) (k : Nibble) : (s.countLenient).key k = s.key k := rfl
@[simp] theorem State.countLenient_readByte (s : State) (a : Nat) : (s.countLenient).readByte a = s.readByte a := rfl

/-! ### enterFatal -/

@[simp] theorem State.enterFatal_v (s : State) (c : FatalCause) (p w : Word) : (s.enterFatal c p w).v = s.v := rfl
@[simp] theorem State.enterFatal_i (s : State) (c : FatalCause) (p w : Word) : (s.enterFatal c p w).i = s.i := rfl
@[simp] theorem State.enterFatal_pc (s : State) (c : FatalCause) (p w : Word) : (s.enterFatal c p w).pc = s.pc := rfl
@[simp] theorem State.enterFatal_stack (s : State) (c : FatalCause) (p w : Word) : (s.enterFatal c p w).stack = s.stack := rfl
@[simp] theorem State.enterFatal_sp (s : State) (c : FatalCause) (p w : Word) : (s.enterFatal c p w).sp = s.sp := rfl
@[simp] theorem State.enterFatal_dt (s : State) (c : FatalCause) (p w : Word) : (s.enterFatal c p w).dt = s.dt := rfl
@[simp] theorem State.enterFatal_st (s : State) (c : FatalCause) (p w : Word) : (s.enterFatal c p w).st = s.st := rfl
@[simp] theorem State.enterFatal_mem (s : State) (c : FatalCause) (p w : Word) : (s.enterFatal c p w).mem = s.mem := rfl
@[simp] theorem State.enterFatal_fb (s : State) (c : FatalCause) (p w : Word) : (s.enterFatal c p w).fb = s.fb := rfl
@[simp] theorem State.enterFatal_redraw (s : State) (c : FatalCause) (p w : Word) : (s.enterFatal c p w).redraw = s.redraw := rfl
@[simp] theorem State.enterFatal_mode (s : State) (c : FatalCause) (p w : Word) : (s.enterFatal c p w).mode = .halted := rfl
@[simp] theorem State.enterFatal_faultCause (s : State) (c : FatalCause) (p w : Word) : (s.enterFatal c p w).faultCause = some c := rfl
@[simp] theorem State.enterFatal_faultPc (s : State) (c : FatalCause) (p w : Word) : (s.enterFatal c p w).faultPc = p := rfl
@[simp] theorem State.enterFatal_faultInstr (s : State) (c : FatalCause) (p w : Word) : (s.enterFatal c p w).faultInstr = w := rfl
@[simp] theorem State.enterFatal_lenientCount (s : State) (c : FatalCause) (p w : Word) : (s.enterFatal c p w).lenientCount = s.lenientCount := rfl
@[simp] theorem State.enterFatal_keys (s : State) (c : FatalCause) (p w : Word) : (s.enterFatal c p w).keys = s.keys := rfl
@[simp] theorem State.enterFatal_cfg (s : State) (c : FatalCause) (p w : Word) : (s.enterFatal c p w).cfg = s.cfg := rfl
@[simp] theorem State.enterFatal_rand (s : State) (c : FatalCause) (p w : Word) : (s.enterFatal c p w).rand = s.rand := rfl
@[simp] theorem State.enterFatal_keyChoice (s : State) (c : FatalCause) (p w : Word) : (s.enterFatal c p w).keyChoice = s.keyChoice := rfl
@[simp] theorem State.enterFatal_drawn (s : State) (c : FatalCause) (p w : Word) : (s.enterFatal c p w).drawn = s.drawn := rfl
@[simp] theorem State.enterFatal_getV (s : State) (c : FatalCause) (p w : Word) (r : Nibble) : (s.enterFatal c p w).getV r = s.getV r := rfl
@[simp] theorem State.enterFatal_pixel (s : State) (c : FatalCause) (p w : Word) (cx : Fin 64) (cy : Fin 32) : (s.enterFatal c p w).pixel cx cy = s.pixel cx cy := rfl
@[simp] theorem State.enterFatal_key (s : State) (c : FatalCause) (p w : Word) (k : Nibble) : (s.enterFatal c p w).key k = s.key k := rfl
@[simp] theorem State.enterFatal_readByte (s : State) (c : FatalCause) (p w : Word) (a : Nat) : (s.enterFatal c p w).readByte a = s.readByte a := rfl

/-! ### writeBytes -/

@[simp] theorem State.writeBytes_v (s : State) (b : Nat) (bs : List Byte) : (s.writeBytes b bs).v = s.v := rfl
@[simp] theorem State.writeBytes_i (s : State) (b : Nat) (bs : List Byte) : (s.writeBytes b bs).i = s.i := rfl
@[simp] theorem State.writeBytes_pc (s : State) (b : Nat) (bs : List Byte) : (s.writeBytes b bs).pc = s.pc := rfl
@[simp] theorem State.writeBytes_stack (s : State) (b : Nat) (bs : List Byte) : (s.writeBytes b bs).stack = s.stack := rfl
@[simp] theorem State.writeBytes_sp (s : State) (b : Nat) (bs : List Byte) : (s.writeBytes b bs).sp = s.sp := rfl
@[simp] theorem State.writeBytes_dt (s : State) (b : Nat) (bs : List Byte) : (s.writeBytes b bs).dt = s.dt := rfl
@[simp] theorem State.writeBytes_st (s : State) (b : Nat) (bs : List Byte) : (s.writeBytes b bs).st = s.st := rfl
@[simp] theorem State.writeBytes_mem (s : State) (b : Nat) (bs : List Byte) : (s.writeBytes b bs).mem = s.mem.writeBytes s.cfg.font b bs := rfl
@[simp] theorem State.writeBytes_fb (s : State) (b : Nat) (bs : List Byte) : (s.writeBytes b bs).fb = s.fb := rfl
@[simp] theorem State.writeBytes_redraw (s : State) (b : Nat) (bs : List Byte) : (s.writeBytes b bs).redraw = s.redraw := rfl
@[simp] theorem State.writeBytes_mode (s : State) (b : Nat) (bs : List Byte) : (s.writeBytes b bs).mode = s.mode := rfl
@[simp] theorem State.writeBytes_faultCause (s : State) (b : Nat) (bs : List Byte) : (s.writeBytes b bs).faultCause = s.faultCause := rfl
@[simp] theorem State.writeBytes_faultPc (s : State) (b : Nat) (bs : List Byte) : (s.writeBytes b bs).faultPc = s.faultPc := rfl
@[simp] theorem State.writeBytes_faultInstr (s : State) (b : Nat) (bs : List Byte) : (s.writeBytes b bs).faultInstr = s.faultInstr := rfl
@[simp] theorem State.writeBytes_lenientCount (s : State) (b : Nat) (bs : List Byte) : (s.writeBytes b bs).lenientCount = s.lenientCount := rfl
@[simp] theorem State.writeBytes_keys (s : State) (b : Nat) (bs : List Byte) : (s.writeBytes b bs).keys = s.keys := rfl
@[simp] theorem State.writeBytes_cfg (s : State) (b : Nat) (bs : List Byte) : (s.writeBytes b bs).cfg = s.cfg := rfl
@[simp] theorem State.writeBytes_rand (s : State) (b : Nat) (bs : List Byte) : (s.writeBytes b bs).rand = s.rand := rfl
@[simp] theorem State.writeBytes_keyChoice (s : State) (b : Nat) (bs : List Byte) : (s.writeBytes b bs).keyChoice = s.keyChoice := rfl
@[simp] theorem State.writeBytes_drawn (s : State) (b : Nat) (bs : List Byte) : (s.writeBytes b bs).drawn = s.drawn := rfl
@[simp] theorem State.writeBytes_getV (s : State) (b : Nat) (bs : List Byte) (r : Nibble) : (s.writeBytes b bs).getV r = s.getV r := rfl
@[simp] theorem State.writeBytes_pixel (s : State) (b : Nat) (bs : List Byte) (cx : Fin 64) (cy : Fin 32) : (s.writeBytes b bs).pixel cx cy = s.pixel cx cy := rfl
@[simp] theorem State.writeBytes_key (s : State) (b : Nat) (bs : List Byte) (k : Nibble) : (s.writeBytes b bs).key k = s.key k := rfl

/-! ### decayTimers -/

@[simp] theorem State.decayTimers_v (s : State) : s.decayTimers.1.v = s.v := rfl
@[simp] theorem State.decayTimers_i (s : State) : s.decayTimers.1.i = s.i := rfl
@[simp] theorem State.decayTimers_pc (s : State) : s.decayTimers.1.pc = s.pc := rfl
@[simp] theorem State.decayTimers_stack (s : State) : s.decayTimers.1.stack = s.stack := rfl
@[simp] theorem State.decayTimers_sp (s : State) : s.decayTimers.1.sp = s.sp := rfl
@[simp] theorem State.decayTimers_dt (s : State) : s.decayTimers.1.dt = decTimer s.dt := rfl
@[simp] theorem State.decayTimers_st (s : State) : s.decayTimers.1.st = decTimer s.st := rfl
@[simp] theorem State.decayTimers_mem (s : State) : s.decayTimers.1.mem = s.mem := rfl
@[simp] theorem State.decayTimers_fb (s : State) : s.decayTimers.1.fb = s.fb := rfl
@[simp] theorem State.decayTimers_redraw (s : State) : s.decayTimers.1.redraw = s.redraw := rfl
@[simp] theorem State.decayTimers_mode (s : State) : s.decayTimers.1.mode = s.mode := rfl
@[simp] theorem State.decayTimers_faultCause (s : State) : s.decayTimers.1.faultCause = s.faultCause := rfl
@[simp] theorem State.decayTimers_faultPc (s : State) : s.decayTimers.1.faultPc = s.faultPc := rfl
@[simp] theorem State.decayTimers_faultInstr (s : State) : s.decayTimers.1.faultInstr = s.faultInstr := rfl
@[simp] theorem State.decayTimers_lenientCount (s : State) : s.decayTimers.1.lenientCount = s.lenientCount := rfl
@[simp] theorem State.decayTimers_keys (s : State) : s.decayTimers.1.keys = s.keys := rfl
@[simp] theorem State.decayTimers_cfg (s : State) : s.decayTimers.1.cfg = s.cfg := rfl
@[simp] theorem State.decayTimers_rand (s : State) : s.decayTimers.1.rand = s.rand := rfl
@[simp] theorem State.decayTimers_keyChoice (s : State) : s.decayTimers.1.keyChoice = s.keyChoice := rfl
@[simp] theorem State.decayTimers_drawn (s : State) : s.decayTimers.1.drawn = s.drawn := rfl
@[simp] theorem State.decayTimers_getV (s : State) (r : Nibble) : s.decayTimers.1.getV r = s.getV r := rfl
@[simp] theorem State.decayTimers_pixel (s : State) (cx : Fin 64) (cy : Fin 32) : s.decayTimers.1.pixel cx cy = s.pixel cx cy := rfl
@[simp] theorem State.decayTimers_key (s : State) (k : Nibble) : s.decayTimers.1.key k = s.key k := rfl
@[simp] theorem State.decayTimers_readByte (s : State) (a : Nat) : s.decayTimers.1.readByte a = s.readByte a := rfl
@[simp] theorem State.decayTimers_edge (s : State) : s.decayTimers.2 = decide (s.st = 1) := rfl

/-! ### strobeReset -/

@[simp] theorem State.strobeReset_v (s : State) : s.strobeReset.v = Vector.replicate 16 0 := rfl
@[simp] theorem State.strobeReset_i (s : State) : s.strobeReset.i = 0 := rfl
@[simp] theorem State.strobeReset_pc (s : State) : s.strobeReset.pc = 0x0200 := rfl
@[simp] theorem State.strobeReset_stack (s : State) : s.strobeReset.stack = Vector.replicate 16 0 := rfl
@[simp] theorem State.strobeReset_sp (s : State) : s.strobeReset.sp = 0 := rfl
@[simp] theorem State.strobeReset_dt (s : State) : s.strobeReset.dt = 0 := rfl
@[simp] theorem State.strobeReset_st (s : State) : s.strobeReset.st = 0 := rfl
@[simp] theorem State.strobeReset_mem (s : State) : s.strobeReset.mem = [] := rfl
@[simp] theorem State.strobeReset_fb (s : State) : s.strobeReset.fb = Framebuffer.blank := rfl
@[simp] theorem State.strobeReset_redraw (s : State) : s.strobeReset.redraw = true := rfl
@[simp] theorem State.strobeReset_mode (s : State) : s.strobeReset.mode = .running := rfl
@[simp] theorem State.strobeReset_faultCause (s : State) : s.strobeReset.faultCause = none := rfl
@[simp] theorem State.strobeReset_faultPc (s : State) : s.strobeReset.faultPc = 0 := rfl
@[simp] theorem State.strobeReset_faultInstr (s : State) : s.strobeReset.faultInstr = 0 := rfl
@[simp] theorem State.strobeReset_lenientCount (s : State) : s.strobeReset.lenientCount = 0 := rfl
@[simp] theorem State.strobeReset_keys (s : State) : s.strobeReset.keys = s.keys := rfl
@[simp] theorem State.strobeReset_cfg (s : State) : s.strobeReset.cfg = s.cfg := rfl
@[simp] theorem State.strobeReset_rand (s : State) : s.strobeReset.rand = s.rand := rfl
@[simp] theorem State.strobeReset_keyChoice (s : State) : s.strobeReset.keyChoice = s.keyChoice := rfl
@[simp] theorem State.strobeReset_drawn (s : State) : s.strobeReset.drawn = s.drawn := rfl
@[simp] theorem State.strobeReset_key (s : State) (k : Nibble) : s.strobeReset.key k = s.key k := rfl

/-! ### writeResultAndFlag: in every case it writes general registers alone -/

@[simp] theorem writeResultAndFlag_i (x : Nibble) (r : Byte) (f : Bool) (s : State) : (writeResultAndFlag x r f s).i = s.i := by
  unfold writeResultAndFlag; split <;> [split; skip] <;> rfl
@[simp] theorem writeResultAndFlag_pc (x : Nibble) (r : Byte) (f : Bool) (s : State) : (writeResultAndFlag x r f s).pc = s.pc := by
  unfold writeResultAndFlag; split <;> [split; skip] <;> rfl
@[simp] theorem writeResultAndFlag_stack (x : Nibble) (r : Byte) (f : Bool) (s : State) : (writeResultAndFlag x r f s).stack = s.stack := by
  unfold writeResultAndFlag; split <;> [split; skip] <;> rfl
@[simp] theorem writeResultAndFlag_sp (x : Nibble) (r : Byte) (f : Bool) (s : State) : (writeResultAndFlag x r f s).sp = s.sp := by
  unfold writeResultAndFlag; split <;> [split; skip] <;> rfl
@[simp] theorem writeResultAndFlag_dt (x : Nibble) (r : Byte) (f : Bool) (s : State) : (writeResultAndFlag x r f s).dt = s.dt := by
  unfold writeResultAndFlag; split <;> [split; skip] <;> rfl
@[simp] theorem writeResultAndFlag_st (x : Nibble) (r : Byte) (f : Bool) (s : State) : (writeResultAndFlag x r f s).st = s.st := by
  unfold writeResultAndFlag; split <;> [split; skip] <;> rfl
@[simp] theorem writeResultAndFlag_mem (x : Nibble) (r : Byte) (f : Bool) (s : State) : (writeResultAndFlag x r f s).mem = s.mem := by
  unfold writeResultAndFlag; split <;> [split; skip] <;> rfl
@[simp] theorem writeResultAndFlag_fb (x : Nibble) (r : Byte) (f : Bool) (s : State) : (writeResultAndFlag x r f s).fb = s.fb := by
  unfold writeResultAndFlag; split <;> [split; skip] <;> rfl
@[simp] theorem writeResultAndFlag_redraw (x : Nibble) (r : Byte) (f : Bool) (s : State) : (writeResultAndFlag x r f s).redraw = s.redraw := by
  unfold writeResultAndFlag; split <;> [split; skip] <;> rfl
@[simp] theorem writeResultAndFlag_mode (x : Nibble) (r : Byte) (f : Bool) (s : State) : (writeResultAndFlag x r f s).mode = s.mode := by
  unfold writeResultAndFlag; split <;> [split; skip] <;> rfl
@[simp] theorem writeResultAndFlag_faultCause (x : Nibble) (r : Byte) (f : Bool) (s : State) : (writeResultAndFlag x r f s).faultCause = s.faultCause := by
  unfold writeResultAndFlag; split <;> [split; skip] <;> rfl
@[simp] theorem writeResultAndFlag_faultPc (x : Nibble) (r : Byte) (f : Bool) (s : State) : (writeResultAndFlag x r f s).faultPc = s.faultPc := by
  unfold writeResultAndFlag; split <;> [split; skip] <;> rfl
@[simp] theorem writeResultAndFlag_faultInstr (x : Nibble) (r : Byte) (f : Bool) (s : State) : (writeResultAndFlag x r f s).faultInstr = s.faultInstr := by
  unfold writeResultAndFlag; split <;> [split; skip] <;> rfl
@[simp] theorem writeResultAndFlag_lenientCount (x : Nibble) (r : Byte) (f : Bool) (s : State) : (writeResultAndFlag x r f s).lenientCount = s.lenientCount := by
  unfold writeResultAndFlag; split <;> [split; skip] <;> rfl
@[simp] theorem writeResultAndFlag_keys (x : Nibble) (r : Byte) (f : Bool) (s : State) : (writeResultAndFlag x r f s).keys = s.keys := by
  unfold writeResultAndFlag; split <;> [split; skip] <;> rfl
@[simp] theorem writeResultAndFlag_cfg (x : Nibble) (r : Byte) (f : Bool) (s : State) : (writeResultAndFlag x r f s).cfg = s.cfg := by
  unfold writeResultAndFlag; split <;> [split; skip] <;> rfl
@[simp] theorem writeResultAndFlag_rand (x : Nibble) (r : Byte) (f : Bool) (s : State) : (writeResultAndFlag x r f s).rand = s.rand := by
  unfold writeResultAndFlag; split <;> [split; skip] <;> rfl
@[simp] theorem writeResultAndFlag_keyChoice (x : Nibble) (r : Byte) (f : Bool) (s : State) : (writeResultAndFlag x r f s).keyChoice = s.keyChoice := by
  unfold writeResultAndFlag; split <;> [split; skip] <;> rfl
@[simp] theorem writeResultAndFlag_drawn (x : Nibble) (r : Byte) (f : Bool) (s : State) : (writeResultAndFlag x r f s).drawn = s.drawn := by
  unfold writeResultAndFlag; split <;> [split; skip] <;> rfl
@[simp] theorem writeResultAndFlag_pixel (x : Nibble) (r : Byte) (f : Bool) (s : State) (cx : Fin 64) (cy : Fin 32) : (writeResultAndFlag x r f s).pixel cx cy = s.pixel cx cy := by
  unfold writeResultAndFlag; split <;> [split; skip] <;> rfl
@[simp] theorem writeResultAndFlag_key (x : Nibble) (r : Byte) (f : Bool) (s : State) (k : Nibble) : (writeResultAndFlag x r f s).key k = s.key k := by
  unfold writeResultAndFlag; split <;> [split; skip] <;> rfl
@[simp] theorem writeResultAndFlag_readByte (x : Nibble) (r : Byte) (f : Bool) (s : State) (a : Nat) : (writeResultAndFlag x r f s).readByte a = s.readByte a := by
  unfold writeResultAndFlag; split <;> [split; skip] <;> rfl

end Sys2Proof.Machine
end

