-- ==== Sys2Proof/Laws/Memory.lean ====
section
/-! SUPPORT. The laws of memory: a read after a write, what a write leaves alone, and that every operation keeps the
canonical form. The read laws need no hypothesis on the list. -/

namespace Sys2Proof.Machine

namespace Memory

theorem read_insert (font : Font) (m : Memory) (a k : Nat) (b : Byte) :
    read font (insert a b m) k = if a = k then b else read font m k := by
  induction m with
  | nil => simp only [insert, read]
  | cons c m ih =>
    obtain ⟨d, e⟩ := c
    simp only [insert]
    split
    · simp only [read]
    · split
      · next h => subst h; simp only [read]; split <;> rfl
      · next h =>
        simp only [read, ih]
        by_cases hd : d = k
        · subst hd; rw [if_pos rfl, if_neg h, if_pos rfl]
        · simp only [if_neg hd]

theorem read_erase (font : Font) (m : Memory) (a k : Nat) :
    read font (erase a m) k = if a = k then unlisted font k else read font m k := by
  induction m with
  | nil => simp [erase, read]
  | cons c m ih =>
    obtain ⟨d, e⟩ := c
    unfold erase at ih ⊢
    by_cases hd : d = a
    · subst hd
      rw [List.filter_cons_of_neg (by simp), ih]
      split
      · rfl
      · next h => simp only [read, if_neg h]
    · rw [List.filter_cons_of_pos (by simpa using hd)]
      simp only [read, ih]
      by_cases hk : d = k
      · subst hk; rw [if_pos rfl, if_neg (Ne.symm hd), if_pos rfl]
      · simp only [if_neg hk]

/-- A read after a write gives the byte written at its own address and what was there at every other (R57). -/
theorem read_write (font : Font) (m : Memory) (a k : Nat) (b : Byte) :
    read font (write font m a b) k = if a = k then b else read font m k := by
  unfold write
  split
  · next h => rw [read_erase]; split <;> simp_all
  · rw [read_insert]

/-- The same for bytes at consecutive addresses. -/
theorem read_writeBytes (font : Font) (bs : List Byte) (m : Memory) (a k : Nat) :
    read font (writeBytes font m a bs) k =
      if h : a ≤ k ∧ k < a + bs.length then bs[k - a]'(by omega) else read font m k := by
  induction bs generalizing m a with
  | nil => simp only [writeBytes, List.length_nil]; rw [dif_neg (by omega)]
  | cons b bs ih =>
    simp only [writeBytes, ih, List.length_cons]
    by_cases h1 : a + 1 ≤ k ∧ k < a + 1 + bs.length
    · rw [dif_pos h1, dif_pos (by omega), List.getElem_cons, dif_neg (by omega)]
      congr 1
    · rw [dif_neg h1, read_write]
      by_cases h2 : a = k
      · subst h2; rw [if_pos rfl, dif_pos (by omega)]; simp
      · rw [if_neg h2, dif_neg (by omega)]

/-! ### The canonical form -/

theorem mem_insert {a : Nat} {b : Byte} {m : Memory} {c : Host.Cell} (h : c ∈ insert a b m) : c = (a, b) ∨ c ∈ m := by
  induction m with
  | nil => simpa [insert] using h
  | cons d m ih =>
    obtain ⟨k, e⟩ := d
    simp only [insert] at h
    split at h
    · simpa using h
    · split at h
      · rcases List.mem_cons.1 h with h | h
        · exact .inl h
        · exact .inr (List.mem_cons_of_mem _ h)
      · rcases List.mem_cons.1 h with h | h
        · exact .inr (h ▸ List.mem_cons_self)
        · exact (ih h).imp_right (List.mem_cons_of_mem _)

theorem insert_pairwise {a : Nat} {b : Byte} {m : Memory} (h : m.Pairwise (fun c d => c.1 < d.1)) :
    (insert a b m).Pairwise (fun c d => c.1 < d.1) := by
  induction m with
  | nil => simp [insert]
  | cons d m ih =>
    obtain ⟨k, e⟩ := d
    rw [List.pairwise_cons] at h
    simp only [insert]
    split
    · next hak =>
      refine List.pairwise_cons.2 ⟨fun c hc => ?_, List.pairwise_cons.2 h⟩
      rcases List.mem_cons.1 hc with hc | hc
      · subst hc; exact hak
      · exact Nat.lt_trans hak (h.1 c hc)
    · split
      · next he => subst he; exact List.pairwise_cons.2 h
      · refine List.pairwise_cons.2 ⟨fun c hc => ?_, ih h.2⟩
        rcases mem_insert hc with hc | hc
        · subst hc; dsimp only; omega
        · exact h.1 c hc

theorem wf_nil (font : Font) : Memory.wf font [] := by simp [wf]

theorem write_wf {font : Font} {m : Memory} {a : Nat} (b : Byte) (ha : a < Config.memSize) (h : m.wf font) :
    (write font m a b).wf font := by
  unfold write
  split
  · exact ⟨h.1.filter _, fun c hc => h.2 c (List.mem_of_mem_filter hc)⟩
  · next hb =>
    refine ⟨insert_pairwise h.1, fun c hc => ?_⟩
    rcases mem_insert hc with hc | hc
    · subst hc; exact ⟨ha, hb⟩
    · exact h.2 c hc

/-- Every write inside the address space keeps the canonical form. -/
theorem writeBytes_wf {font : Font} (bs : List Byte) {m : Memory} {a : Nat} (ha : a + bs.length ≤ Config.memSize)
    (h : m.wf font) : (writeBytes font m a bs).wf font := by
  induction bs generalizing m a with
  | nil => exact h
  | cons b bs ih =>
    simp only [List.length_cons] at ha
    exact ih (by omega) (write_wf b (by omega) h)

/-- Below every listed address, a memory reads as the reset contents. -/
theorem read_below {font : Font} {m : Memory} {a : Nat} (h : ∀ c ∈ m, a < c.1) : m.read font a = unlisted font a := by
  induction m with
  | nil => rfl
  | cons c m ih =>
    obtain ⟨k, b⟩ := c
    have hk := h (k, b) (by simp)
    rw [read, if_neg (by simp only at hk; omega)]
    exact ih fun c hc => h c (by simp [hc])

/-- The head of a canonical memory reads differently in a memory whose addresses all lie above it. -/
theorem read_head_ne {font : Font} {k : Nat} {b : Byte} {m n : Memory} (hm : Memory.wf font ((k, b) :: m))
    (hn : ∀ c ∈ n, k < c.1) : read font ((k, b) :: m) k ≠ read font n k := by
  rw [read_below hn]
  simpa [read] using (hm.2 (k, b) (by simp)).2

/-- Equal memories are equal data: two canonical memories that read alike at every address are one list. -/
theorem wf_ext {font : Font} {m n : Memory} (hm : m.wf font) (hn : n.wf font)
    (h : ∀ a, m.read font a = n.read font a) : m = n := by
  induction m generalizing n with
  | nil =>
    cases n with
    | nil => rfl
    | cons c n => exact absurd (h c.1).symm (read_head_ne hn (by simp))
  | cons c m ih =>
    cases n with
    | nil => exact absurd (h c.1) (read_head_ne hm (by simp))
    | cons d n =>
      obtain ⟨k, b⟩ := c
      obtain ⟨l, e⟩ := d
      have hm1 := List.pairwise_cons.1 hm.1
      have hn1 := List.pairwise_cons.1 hn.1
      obtain rfl : k = l := by
        rcases Nat.lt_trichotomy k l with hlt | he | hlt
        · exact absurd (h k) (read_head_ne hm fun c hc => by
            rcases List.mem_cons.1 hc with rfl | hc
            · exact hlt
            · exact Nat.lt_trans hlt (hn1.1 c hc))
        · exact he
        · exact absurd (h l).symm (read_head_ne hn fun c hc => by
            rcases List.mem_cons.1 hc with rfl | hc
            · exact hlt
            · exact Nat.lt_trans hlt (hm1.1 c hc))
      obtain rfl : b = e := by simpa [read] using h k
      congr 1
      refine ih ⟨hm1.2, fun c hc => hm.2 c (by simp [hc])⟩ ⟨hn1.2, fun c hc => hn.2 c (by simp [hc])⟩ fun a => ?_
      by_cases ha : k = a
      · subst ha
        rw [read_below hm1.1, read_below hn1.1]
      · simpa [read, ha] using h a

end Memory

/-- Reading one byte after a write of consecutive bytes. -/
theorem State.readByte_writeBytes (s : State) (a k : Nat) (bs : List Byte) :
    (s.writeBytes a bs).readByte k =
      if h : a ≤ k ∧ k < a + bs.length then bs[k - a]'(by omega) else s.readByte k :=
  Memory.read_writeBytes s.cfg.font bs s.mem a k

/-- Two states with equal memories and configurations read the same. -/
theorem State.readByte_of_mem_eq {s t : State} (hm : t.mem = s.mem) (hc : t.cfg = s.cfg) (a : Nat) :
    t.readByte a = s.readByte a := by
  simp [State.readByte, hm, hc]

theorem inMemory_iff (a n : Nat) : inMemory a n = true ↔ n = 0 ∨ a + n ≤ 4096 := by simp [inMemory]

@[simp] theorem length_bcdBytes (b : Byte) : (bcdBytes b).length = 3 := rfl

@[simp] theorem length_regBytes (x : Nibble) (s : State) : (regBytes x s).length = x.toNat + 1 := by
  simp [regBytes, regCount]

theorem getElem_regBytes (x : Nibble) (s : State) (j : Nat) (h : j < (regBytes x s).length) :
    (regBytes x s)[j] = s.getV (BitVec.ofNat 4 j) := by
  simp [regBytes]

@[simp] theorem length_spriteBytes (n : Nibble) (s : State) : (spriteBytes n s).length = n.toNat := by
  simp [spriteBytes, State.readBytes]

theorem getElem_spriteBytes (n : Nibble) (s : State) (j : Nat) (h : j < (spriteBytes n s).length) :
    (spriteBytes n s)[j] = s.readByte (s.i.toNat + j) := by
  simp [spriteBytes, State.readBytes, indexAddr]

end Sys2Proof.Machine
end

