-- ==== Sys2Proof/Laws/Display.lean ====
section
/-! SUPPORT. The laws of the framebuffer and of the blit: what a sprite leaves in each pixel and when it collides. No
pixel is visited twice, so the order of the visits does not matter (R191). -/

namespace Sys2Proof.Machine

theorem Framebuffer.get_put (f : Framebuffer) (cx px : Fin 64) (cy py : Fin 32) (b : Bool) :
    (f.put cx cy b).get px py = if px = cx ∧ py = cy then b else f.get px py := by
  simp only [Framebuffer.get, Framebuffer.put, Vector.getElem_set, Fin.ext_iff]
  by_cases hy : cy.val = py.val
  · by_cases hx : cx.val = px.val
    · simp [hx, hy]
    · simp [hx, hy, Ne.symm hx]
  · simp [hy, Ne.symm hy]

@[simp] theorem Framebuffer.get_blank (cx : Fin 64) (cy : Fin 32) : Framebuffer.blank.get cx cy = false := by
  simp [Framebuffer.get, Framebuffer.blank]

@[simp] theorem State.pixel_show (s : State) (f : Framebuffer) (cx : Fin 64) (cy : Fin 32) :
    (s.show f).pixel cx cy = f.get cx cy := rfl

/-- The pixel (px, py) is under a set bit among the first `k` columns of the row `b` drawn at column cx, row cy. -/
def RowOn (cx cy : Nat) (b : Byte) (k : Nat) (px : Fin 64) (py : Fin 32) : Prop :=
  ∃ col, col < k ∧ spriteBit b col = true ∧ px = wrapX (cx + col) ∧ py = wrapY cy

theorem RowOn.succ {cx cy : Nat} {b : Byte} {k : Nat} {px : Fin 64} {py : Fin 32} :
    RowOn cx cy b (k + 1) px py ↔
      RowOn cx cy b k px py ∨ (spriteBit b k = true ∧ px = wrapX (cx + k) ∧ py = wrapY cy) := by
  constructor
  · rintro ⟨col, hc, h⟩
    by_cases he : col = k
    · subst he; exact .inr h
    · exact .inl ⟨col, by omega, h⟩
  · rintro (⟨col, hc, h⟩ | h)
    · exact ⟨col, by omega, h⟩
    · exact ⟨k, by omega, h⟩

/-- Two columns of one row land on different pixels: eight columns are fewer than 64. -/
theorem RowOn.fresh {cx cy : Nat} {b : Byte} {k : Nat} (hk : k < 8) :
    ¬ RowOn cx cy b k (wrapX (cx + k)) (wrapY cy) := by
  rintro ⟨col, hc, -, hx, -⟩
  have : (cx + k) % 64 = (cx + col) % 64 := congrArg Fin.val hx
  omega

/-- A sprite row, the first `k` columns of it: the covered pixels are inverted and no other is changed, and it collides
exactly where one of them was on. -/
theorem foldl_plot (cx cy : Nat) (b : Byte) (acc : Blit) (k : Nat) (hk : k ≤ 8) :
    (∀ px py, (RowOn cx cy b k px py → ((List.range k).foldl (plot cx cy b) acc).1.get px py = !acc.1.get px py) ∧
      (¬ RowOn cx cy b k px py → ((List.range k).foldl (plot cx cy b) acc).1.get px py = acc.1.get px py)) ∧
    (((List.range k).foldl (plot cx cy b) acc).2 = true ↔
      acc.2 = true ∨ ∃ px py, RowOn cx cy b k px py ∧ acc.1.get px py = true) := by
  induction k with
  | zero =>
    have hn : ∀ px py, ¬ RowOn cx cy b 0 px py := fun px py ⟨c, hc, _⟩ => absurd hc (Nat.not_lt_zero c)
    exact ⟨fun px py => ⟨fun h => absurd h (hn px py), fun _ => rfl⟩,
      ⟨.inl, fun h => h.elim id (fun ⟨px, py, h, _⟩ => absurd h (hn px py))⟩⟩
  | succ k ih =>
    obtain ⟨hp, hf⟩ := ih (by omega)
    have hfresh := RowOn.fresh (cx := cx) (cy := cy) (b := b) (show k < 8 by omega)
    rw [List.range_succ, List.foldl_append, List.foldl_cons, List.foldl_nil]
    generalize (List.range k).foldl (plot cx cy b) acc = r at hp hf ⊢
    unfold plot
    split
    · next hb =>
      refine ⟨fun px py => ?_, ?_⟩
      · simp only [Framebuffer.get_put, RowOn.succ, hb, true_and]
        by_cases he : px = wrapX (cx + k) ∧ py = wrapY cy
        · obtain ⟨rfl, rfl⟩ := he
          simp [(hp _ _).2 hfresh]
        · simp only [he, if_false, or_false]
          exact hp px py
      · simp only [Bool.or_eq_true, hf, RowOn.succ, hb, true_and, (hp _ _).2 hfresh]
        constructor
        · rintro ((h | ⟨px, py, h, hg⟩) | h)
          · exact .inl h
          · exact .inr ⟨px, py, .inl h, hg⟩
          · exact .inr ⟨_, _, .inr ⟨rfl, rfl⟩, h⟩
        · rintro (h | ⟨px, py, h | ⟨rfl, rfl⟩, hg⟩)
          · exact .inl (.inl h)
          · exact .inl (.inr ⟨px, py, h, hg⟩)
          · exact .inr hg
    · next hb =>
      simp only [RowOn.succ, hb, Bool.false_eq_true, false_and, or_false]
      exact ⟨hp, hf⟩

/-- One whole sprite row. -/
theorem blitRow_spec (cx cy : Nat) (b : Byte) (acc : Blit) :
    (∀ px py, (RowOn cx cy b 8 px py → (blitRow cx cy b acc).1.get px py = !acc.1.get px py) ∧
      (¬ RowOn cx cy b 8 px py → (blitRow cx cy b acc).1.get px py = acc.1.get px py)) ∧
    ((blitRow cx cy b acc).2 = true ↔ acc.2 = true ∨ ∃ px py, RowOn cx cy b 8 px py ∧ acc.1.get px py = true) :=
  foldl_plot cx cy b acc 8 (Nat.le_refl 8)

/-- The pixel (px, py) is under a set bit of the sprite `bs` drawn from column cx, row cy. -/
def BlitOn (cx cy : Nat) (bs : List Byte) (px : Fin 64) (py : Fin 32) : Prop :=
  ∃ (r : Nat) (h : r < bs.length), RowOn cx (cy + r) bs[r] 8 px py

theorem BlitOn.cons {cx cy : Nat} {b : Byte} {bs : List Byte} {px : Fin 64} {py : Fin 32} :
    BlitOn cx cy (b :: bs) px py ↔ RowOn cx cy b 8 px py ∨ BlitOn cx (cy + 1) bs px py := by
  constructor
  · rintro ⟨r, h, hr⟩
    cases r with
    | zero => exact .inl hr
    | succ r =>
      rw [show cy + (r + 1) = cy + 1 + r by omega] at hr
      exact .inr ⟨r, Nat.lt_of_succ_lt_succ h, hr⟩
  · rintro (hr | ⟨r, h, hr⟩)
    · exact ⟨0, Nat.succ_pos _, hr⟩
    · rw [show cy + 1 + r = cy + (r + 1) by omega] at hr
      exact ⟨r + 1, Nat.succ_lt_succ h, hr⟩

/-- Two rows of one sprite land on different screen rows: a sprite has fewer than 32. -/
theorem RowOn.not_below {cx cy : Nat} {b : Byte} {bs : List Byte} (hl : bs.length < 32) {px : Fin 64} {py : Fin 32}
    (h : RowOn cx cy b 8 px py) : ¬ BlitOn cx (cy + 1) bs px py := by
  obtain ⟨_, -, -, -, hy⟩ := h
  rintro ⟨r, hr, _, -, -, -, hy'⟩
  have : cy % 32 = (cy + 1 + r) % 32 := congrArg Fin.val (hy.symm.trans hy')
  omega

/-- A sprite of fewer than 32 rows: the covered pixels are inverted and no other is changed, and it collides exactly where
one of them was on. -/
theorem blit_spec (cx : Nat) (bs : List Byte) (hl : bs.length < 32) (cy : Nat) (acc : Blit) :
    (∀ px py, (BlitOn cx cy bs px py → (blit cx cy bs acc).1.get px py = !acc.1.get px py) ∧
      (¬ BlitOn cx cy bs px py → (blit cx cy bs acc).1.get px py = acc.1.get px py)) ∧
    ((blit cx cy bs acc).2 = true ↔ acc.2 = true ∨ ∃ px py, BlitOn cx cy bs px py ∧ acc.1.get px py = true) := by
  induction bs generalizing cy acc with
  | nil =>
    have hn : ∀ px py, ¬ BlitOn cx cy [] px py := fun px py ⟨r, hr, _⟩ => absurd hr (Nat.not_lt_zero r)
    exact ⟨fun px py => ⟨fun h => absurd h (hn px py), fun _ => rfl⟩,
      ⟨.inl, fun h => h.elim id (fun ⟨px, py, h, _⟩ => absurd h (hn px py))⟩⟩
  | cons b bs ih =>
    have hl' : bs.length < 32 := Nat.lt_of_succ_lt hl
    obtain ⟨hrow, hrf⟩ := blitRow_spec cx cy b acc
    obtain ⟨hp, hf⟩ := ih hl' (cy + 1) (blitRow cx cy b acc)
    simp only [blit, BlitOn.cons, hf, hrf]
    refine ⟨fun px py => ⟨?_, fun h => ?_⟩, ?_⟩
    · rintro (h | h)
      · rw [(hp px py).2 (h.not_below hl'), (hrow px py).1 h]
      · rw [(hp px py).1 h, (hrow px py).2 (fun hr => hr.not_below hl' h)]
    · rw [(hp px py).2 (fun hb => h (.inr hb)), (hrow px py).2 (fun hr => h (.inl hr))]
    · constructor
      · rintro ((h | ⟨px, py, h, hg⟩) | ⟨px, py, h, hg⟩)
        · exact .inl h
        · exact .inr ⟨px, py, .inl h, hg⟩
        · rw [(hrow px py).2 (fun hr => hr.not_below hl' h)] at hg
          exact .inr ⟨px, py, .inr h, hg⟩
      · rintro (h | ⟨px, py, h | h, hg⟩)
        · exact .inl (.inl h)
        · exact .inl (.inr ⟨px, py, h, hg⟩)
        · refine .inr ⟨px, py, h, ?_⟩
          rw [(hrow px py).2 (fun hr => hr.not_below hl' h)]
          exact hg

end Sys2Proof.Machine
end

