-- ==== Sys2Proof/Laws/PerInstr.lean ====
section
/-! SUPPORT. Statements for all instructions, one lemma per constructor. -/

namespace Sys2Proof.Laws.OpcodeRow

/-- R83: the word of the instruction, under the mask of its row of the opcode map, is the match of the row. -/
def Statement (i : Instr) : Prop := encode i &&& (opcodeRow i).2 = (opcodeRow i).1

theorem clear (z : Nibble) : Statement (.clear z) :=
  (mask_family_byte _).trans (by simp only [encode, opField_xkk, kkField_xkk]; rfl)

theorem ret (z : Nibble) : Statement (.ret z) :=
  (mask_family_byte _).trans (by simp only [encode, opField_xkk, kkField_xkk]; rfl)

theorem jump (nnn : Imm12) : Statement (.jump nnn) :=
  (mask_family _).trans (by simp only [encode, opField_nnn]; rfl)

theorem call (nnn : Imm12) : Statement (.call nnn) :=
  (mask_family _).trans (by simp only [encode, opField_nnn]; rfl)

theorem skipEqImm (x : Nibble) (kk : Byte) : Statement (.skipEqImm x kk) :=
  (mask_family _).trans (by simp only [encode, opField_xkk]; rfl)

theorem skipNeImm (x : Nibble) (kk : Byte) : Statement (.skipNeImm x kk) :=
  (mask_family _).trans (by simp only [encode, opField_xkk]; rfl)

theorem skipEqReg (x y n : Nibble) : Statement (.skipEqReg x y n) :=
  (mask_family _).trans (by simp only [encode, opField_xyn]; rfl)

theorem skipNeReg (x y n : Nibble) : Statement (.skipNeReg x y n) :=
  (mask_family _).trans (by simp only [encode, opField_xyn]; rfl)

theorem loadImm (x : Nibble) (kk : Byte) : Statement (.loadImm x kk) :=
  (mask_family _).trans (by simp only [encode, opField_xkk]; rfl)

theorem addImm (x : Nibble) (kk : Byte) : Statement (.addImm x kk) :=
  (mask_family _).trans (by simp only [encode, opField_xkk]; rfl)

theorem loadReg (x y : Nibble) : Statement (.loadReg x y) :=
  (mask_family_nibble _).trans (by simp only [encode, opField_xyn, nField_xyn]; rfl)

theorem orReg (x y : Nibble) : Statement (.orReg x y) :=
  (mask_family_nibble _).trans (by simp only [encode, opField_xyn, nField_xyn]; rfl)

theorem andReg (x y : Nibble) : Statement (.andReg x y) :=
  (mask_family_nibble _).trans (by simp only [encode, opField_xyn, nField_xyn]; rfl)

theorem xorReg (x y : Nibble) : Statement (.xorReg x y) :=
  (mask_family_nibble _).trans (by simp only [encode, opField_xyn, nField_xyn]; rfl)

theorem addReg (x y : Nibble) : Statement (.addReg x y) :=
  (mask_family_nibble _).trans (by simp only [encode, opField_xyn, nField_xyn]; rfl)

theorem subReg (x y : Nibble) : Statement (.subReg x y) :=
  (mask_family_nibble _).trans (by simp only [encode, opField_xyn, nField_xyn]; rfl)

theorem shr (x y : Nibble) : Statement (.shr x y) :=
  (mask_family_nibble _).trans (by simp only [encode, opField_xyn, nField_xyn]; rfl)

theorem subnReg (x y : Nibble) : Statement (.subnReg x y) :=
  (mask_family_nibble _).trans (by simp only [encode, opField_xyn, nField_xyn]; rfl)

theorem shl (x y : Nibble) : Statement (.shl x y) :=
  (mask_family_nibble _).trans (by simp only [encode, opField_xyn, nField_xyn]; rfl)

theorem loadI (nnn : Imm12) : Statement (.loadI nnn) :=
  (mask_family _).trans (by simp only [encode, opField_nnn]; rfl)

theorem jumpOffset (nnn : Imm12) : Statement (.jumpOffset nnn) :=
  (mask_family _).trans (by simp only [encode, opField_nnn]; rfl)

theorem random (x : Nibble) (kk : Byte) : Statement (.random x kk) :=
  (mask_family _).trans (by simp only [encode, opField_xkk]; rfl)

theorem draw (x y n : Nibble) : Statement (.draw x y n) :=
  (mask_family _).trans (by simp only [encode, opField_xyn]; rfl)

theorem skipKeyPressed (x : Nibble) : Statement (.skipKeyPressed x) :=
  (mask_family_byte _).trans (by simp only [encode, opField_xkk, kkField_xkk]; rfl)

theorem skipKeyNotPressed (x : Nibble) : Statement (.skipKeyNotPressed x) :=
  (mask_family_byte _).trans (by simp only [encode, opField_xkk, kkField_xkk]; rfl)

theorem getDelay (x : Nibble) : Statement (.getDelay x) :=
  (mask_family_byte _).trans (by simp only [encode, opField_xkk, kkField_xkk]; rfl)

theorem setDelay (x : Nibble) : Statement (.setDelay x) :=
  (mask_family_byte _).trans (by simp only [encode, opField_xkk, kkField_xkk]; rfl)

theorem setSound (x : Nibble) : Statement (.setSound x) :=
  (mask_family_byte _).trans (by simp only [encode, opField_xkk, kkField_xkk]; rfl)

theorem addToI (x : Nibble) : Statement (.addToI x) :=
  (mask_family_byte _).trans (by simp only [encode, opField_xkk, kkField_xkk]; rfl)

theorem loadFontAddr (x : Nibble) : Statement (.loadFontAddr x) :=
  (mask_family_byte _).trans (by simp only [encode, opField_xkk, kkField_xkk]; rfl)

theorem storeBcd (x : Nibble) : Statement (.storeBcd x) :=
  (mask_family_byte _).trans (by simp only [encode, opField_xkk, kkField_xkk]; rfl)

theorem storeRegs (x : Nibble) : Statement (.storeRegs x) :=
  (mask_family_byte _).trans (by simp only [encode, opField_xkk, kkField_xkk]; rfl)

theorem loadRegs (x : Nibble) : Statement (.loadRegs x) :=
  (mask_family_byte _).trans (by simp only [encode, opField_xkk, kkField_xkk]; rfl)

theorem waitKey (x : Nibble) : Statement (.waitKey x) :=
  (mask_family_byte _).trans (by simp only [encode, opField_xkk, kkField_xkk]; rfl)

theorem nopLenient0 (low : Imm12) : Statement (.nopLenient0 low) :=
  (mask_family _).trans (by simp only [encode, opField_nnn]; rfl)

theorem nopLenient8 (low : Imm12) : Statement (.nopLenient8 low) :=
  (mask_family _).trans (by simp only [encode, opField_nnn]; rfl)

theorem nopLenientE (low : Imm12) : Statement (.nopLenientE low) :=
  (mask_family _).trans (by simp only [encode, opField_nnn]; rfl)

theorem nopLenientF (low : Imm12) : Statement (.nopLenientF low) :=
  (mask_family _).trans (by simp only [encode, opField_nnn]; rfl)

end Sys2Proof.Laws.OpcodeRow
end

