-- ==== Sys2Proof/Laws/Registers.lean ====
section
/-! SUPPORT. The laws of the register file, the flag write and the return stack. -/

namespace Sys2Proof.Machine

@[simp] theorem State.getV_setV_self (s : State) (r : Nibble) (b : Byte) : (s.setV r b).getV r = b := by
  simp [State.getV, State.setV]

theorem State.getV_setV_ne (s : State) {r q : Nibble} (b : Byte) (h : q ≠ r) : (s.setV r b).getV q = s.getV q := by
  have : r.toNat ≠ q.toNat := fun e => h (BitVec.eq_of_toNat_eq e.symm)
  simp [State.getV, State.setV, Vector.getElem_set_ne _ _ this]

theorem State.getV_setV (s : State) (r q : Nibble) (b : Byte) :
    (s.setV r b).getV q = if q = r then b else s.getV q := by
  split
  · next h => subst h; exact s.getV_setV_self q b
  · next h => exact s.getV_setV_ne b h

/-- Setting a register is local to the register file: it commutes with what the accessor reads through it. -/
theorem State.getV_of_v_eq {s t : State} (h : t.v = s.v) (r : Nibble) : t.getV r = s.getV r := by
  simp [State.getV, h]

/-- Where x is not F, `WriteResultAndFlag` leaves the result in Vx, the flag in VF and the rest unchanged (R140). -/
theorem getV_writeResultAndFlag_ne {x : Nibble} (r : Byte) (f : Bool) (s : State) (q : Nibble) (h : x ≠ flagReg) :
    (writeResultAndFlag x r f s).getV q = if q = flagReg then flagByte f else if q = x then r else s.getV q := by
  unfold writeResultAndFlag
  rw [if_neg h, State.getV_setV, State.getV_setV]

/-- Where x is F, VF ends as the flag under FLAG_LAST and as the result under RESULT_LAST (R140). -/
theorem getV_writeResultAndFlag_flagReg (r : Byte) (f : Bool) (s : State) (q : Nibble) :
    (writeResultAndFlag flagReg r f s).getV q =
      if q = flagReg then (match s.cfg.vfOrder with | .flagLast => flagByte f | .resultLast => r) else s.getV q := by
  unfold writeResultAndFlag
  rw [if_pos rfl]
  cases s.cfg.vfOrder <;> simp only [State.getV_setV] <;> split <;> rfl

/-- Whatever x is, a register that is neither Vx nor VF is unchanged (R140). -/
theorem getV_writeResultAndFlag_other {x q : Nibble} (r : Byte) (f : Bool) (s : State) (hx : q ≠ x) (hf : q ≠ flagReg) :
    (writeResultAndFlag x r f s).getV q = s.getV q := by
  by_cases h : x = flagReg
  · subst h; rw [getV_writeResultAndFlag_flagReg, if_neg hf]
  · rw [getV_writeResultAndFlag_ne r f s q h, if_neg hf, if_neg hx]

theorem State.getV_setRegs (s : State) (w : Vector Byte 16) (r : Nibble) :
    (s.setRegs w).getV r = w[r.toNat]'r.isLt := rfl

/-- LOAD-REGS takes V0 to Vx from memory at I and keeps the rest (R175). -/
theorem getElem_loadedRegs (x : Nibble) (s : State) (j : Nat) (h : j < 16) :
    (loadedRegs x s)[j] = if j ≤ x.toNat then s.readByte (s.i.toNat + j) else s.v[j] := by
  simp [loadedRegs, indexAddr]

theorem State.getV_captureKey (s : State) (t q : Nibble) :
    (s.captureKey t).getV q = if q = t then (pickKey s.keys s.keyChoice).setWidth 8 else s.getV q :=
  s.getV_setV t q _

/-- Pushing writes the entry at SP and no other (R25). -/
theorem State.getElem_push_stack (s : State) (w : Word) (h : s.sp.val < 16) (j : Nat) (hj : j < 16) :
    (s.push w h).stack[j] = if j = s.sp.val then w else s.stack[j] := by
  simp only [State.push_stack, Vector.getElem_set, eq_comm]

end Sys2Proof.Machine
end

