-- ==== Sys2Proof/Laws/Step.lean ====
section
/-! SUPPORT. What a handler, a step and a host action can do, said once: every handler answers a next state; it completes
with MODE and the fault record unchanged, or suspends, or enters a fatal error; and the step around it. -/

namespace Sys2Proof.Machine

/-! ### Handlers -/

/-- A handler's answer when the fatal condition is decided by an `if`: the fatal state or the completed one. -/
theorem raise_eq (c : FatalCause) (i : Instr) (s : State) : raise c i s = .next (s.enterFatal c s.pc (encode i)) := rfl

theorem execRet_pos (z : Nibble) (s : State) (h : 0 < s.sp.val) : execRet z s = .next (s.drop.goto (s.top h + 2)) :=
  dif_pos h

theorem execRet_neg (z : Nibble) (s : State) (h : ¬ 0 < s.sp.val) : execRet z s = raise .stackUnderflow (.ret z) s :=
  dif_neg h

theorem execCall_pos (nnn : Imm12) (s : State) (h : s.sp.val < 16) :
    execCall nnn s = .next ((s.push s.pc h).goto (immAddr nnn)) :=
  dif_pos h

theorem execCall_neg (nnn : Imm12) (s : State) (h : ¬ s.sp.val < 16) :
    execCall nnn s = raise .stackOverflow (.call nnn) s :=
  dif_neg h

theorem keyIndex_pos (x : Nibble) (s : State) (h : (s.getV x).toNat ≤ 15) :
    keyIndex x s = some ((s.getV x).setWidth 4) := if_pos h

theorem keyIndex_neg (x : Nibble) (s : State) (h : ¬ (s.getV x).toNat ≤ 15) : keyIndex x s = none := if_neg h

theorem execStoreBcd_pos (x : Nibble) (s : State) (h : inMemory (indexAddr s) 3 = true) :
    execStoreBcd x s = .next (s.writeBytes (indexAddr s) (bcdBytes (s.getV x))).advance := if_pos h

theorem execStoreBcd_neg (x : Nibble) (s : State) (h : ¬ inMemory (indexAddr s) 3 = true) :
    execStoreBcd x s = raise .memOutOfBounds (.storeBcd x) s := if_neg h

theorem execStoreRegs_pos (x : Nibble) (s : State) (h : inMemory (indexAddr s) (regCount x) = true) :
    execStoreRegs x s = .next (s.writeBytes (indexAddr s) (regBytes x s)).advance := if_pos h

theorem execStoreRegs_neg (x : Nibble) (s : State) (h : ¬ inMemory (indexAddr s) (regCount x) = true) :
    execStoreRegs x s = raise .memOutOfBounds (.storeRegs x) s := if_neg h

theorem execLoadRegs_pos (x : Nibble) (s : State) (h : inMemory (indexAddr s) (regCount x) = true) :
    execLoadRegs x s = .next (s.setRegs (loadedRegs x s)).advance := if_pos h

theorem execLoadRegs_neg (x : Nibble) (s : State) (h : ¬ inMemory (indexAddr s) (regCount x) = true) :
    execLoadRegs x s = raise .memOutOfBounds (.loadRegs x) s := if_neg h

theorem execDraw_pos (x y n : Nibble) (s : State) (h : inMemory (indexAddr s) n.toNat = true) :
    execDraw x y n s =
      .next ((s.show (drawBlit x y n s).1).setV flagReg (flagByte (drawBlit x y n s).2)).advance := if_pos h

theorem execDraw_neg (x y n : Nibble) (s : State) (h : ¬ inMemory (indexAddr s) n.toNat = true) :
    execDraw x y n s = raise .memOutOfBounds (.draw x y n) s := if_neg h

/-- How a handler can end (R104): Completed, with MODE, the fault record and the inputs unchanged; Suspended, WAIT-KEY alone
and only with no key pressed; or Fatal, with the state as R232 leaves it. -/
theorem exec_ends {i : Instr} {s t : State} (h : exec i s = .next t) :
    (t.mode = s.mode ∧ t.faultCause = s.faultCause ∧ t.faultPc = s.faultPc ∧ t.faultInstr = s.faultInstr ∧
      t.keys = s.keys ∧ t.cfg = s.cfg) ∨
    (∃ x, i = .waitKey x ∧ s.keys = 0 ∧ t = s.setMode (.awaitingKey x)) ∨
    (∃ c, c ≠ .pcOutOfBounds ∧ t = s.enterFatal c s.pc (encode i)) := by
  cases i with
  | ret z =>
    by_cases hp : 0 < s.sp.val
    · rw [exec, execRet_pos z s hp] at h; cases h; exact .inl ⟨rfl, rfl, rfl, rfl, rfl, rfl⟩
    · rw [exec, execRet_neg z s hp] at h; cases h; exact .inr (.inr ⟨_, by simp, rfl⟩)
  | call nnn =>
    by_cases hp : s.sp.val < 16
    · rw [exec, execCall_pos nnn s hp] at h; cases h; exact .inl ⟨rfl, rfl, rfl, rfl, rfl, rfl⟩
    · rw [exec, execCall_neg nnn s hp] at h; cases h; exact .inr (.inr ⟨_, by simp, rfl⟩)
  | waitKey x =>
    simp only [exec, execWaitKey] at h
    split at h
    · next hk => cases h; exact .inr (.inl ⟨x, rfl, hk, rfl⟩)
    · cases h; exact .inl ⟨rfl, rfl, rfl, rfl, rfl, rfl⟩
  | skipKeyPressed x =>
    by_cases hp : (s.getV x).toNat ≤ 15
    · simp only [exec, execSkipKeyPressed, keyIndex_pos x s hp] at h; cases h; exact .inl ⟨rfl, rfl, rfl, rfl, rfl, rfl⟩
    · simp only [exec, execSkipKeyPressed, keyIndex_neg x s hp] at h; cases h; exact .inr (.inr ⟨_, by simp, rfl⟩)
  | skipKeyNotPressed x =>
    by_cases hp : (s.getV x).toNat ≤ 15
    · simp only [exec, execSkipKeyNotPressed, keyIndex_pos x s hp] at h; cases h
      exact .inl ⟨rfl, rfl, rfl, rfl, rfl, rfl⟩
    · simp only [exec, execSkipKeyNotPressed, keyIndex_neg x s hp] at h; cases h; exact .inr (.inr ⟨_, by simp, rfl⟩)
  | storeBcd x =>
    by_cases hp : inMemory (indexAddr s) 3 = true
    · rw [exec, execStoreBcd_pos x s hp] at h; cases h; left; simp
    · rw [exec, execStoreBcd_neg x s hp, raise_eq] at h; cases h; exact .inr (.inr ⟨_, by simp, rfl⟩)
  | storeRegs x =>
    by_cases hp : inMemory (indexAddr s) (regCount x) = true
    · rw [exec, execStoreRegs_pos x s hp] at h; cases h; left; simp
    · rw [exec, execStoreRegs_neg x s hp, raise_eq] at h; cases h; exact .inr (.inr ⟨_, by simp, rfl⟩)
  | loadRegs x =>
    by_cases hp : inMemory (indexAddr s) (regCount x) = true
    · rw [exec, execLoadRegs_pos x s hp] at h; cases h; left; simp
    · rw [exec, execLoadRegs_neg x s hp, raise_eq] at h; cases h; exact .inr (.inr ⟨_, by simp, rfl⟩)
  | draw x y n =>
    by_cases hp : inMemory (indexAddr s) n.toNat = true
    · rw [exec, execDraw_pos x y n s hp] at h; cases h; left; simp
    · rw [exec, execDraw_neg x y n s hp, raise_eq] at h; cases h; exact .inr (.inr ⟨_, by simp, rfl⟩)
  | addReg x y | subReg x y | shr x y | subnReg x y | shl x y =>
    cases h; left; simp
  | _ => cases h; exact .inl ⟨rfl, rfl, rfl, rfl, rfl, rfl⟩

/-- Every handler answers a next state: no instruction is refused and none stops the machine by itself. -/
theorem exec_answers (i : Instr) (s : State) : ∃ t, exec i s = .next t := by
  cases i with
  | ret z => by_cases hp : 0 < s.sp.val <;> [exact ⟨_, execRet_pos z s hp⟩; exact ⟨_, execRet_neg z s hp⟩]
  | call nnn => by_cases hp : s.sp.val < 16 <;> [exact ⟨_, execCall_pos nnn s hp⟩; exact ⟨_, execCall_neg nnn s hp⟩]
  | waitKey x => simp only [exec, execWaitKey]; split <;> exact ⟨_, rfl⟩
  | skipKeyPressed x => simp only [exec, execSkipKeyPressed]; split <;> exact ⟨_, rfl⟩
  | skipKeyNotPressed x => simp only [exec, execSkipKeyNotPressed]; split <;> exact ⟨_, rfl⟩
  | storeBcd x => by_cases hp : inMemory (indexAddr s) 3 = true <;> [exact ⟨_, execStoreBcd_pos x s hp⟩; exact ⟨_, execStoreBcd_neg x s hp⟩]
  | storeRegs x =>
    by_cases hp : inMemory (indexAddr s) (regCount x) = true <;> [exact ⟨_, execStoreRegs_pos x s hp⟩; exact ⟨_, execStoreRegs_neg x s hp⟩]
  | loadRegs x =>
    by_cases hp : inMemory (indexAddr s) (regCount x) = true <;> [exact ⟨_, execLoadRegs_pos x s hp⟩; exact ⟨_, execLoadRegs_neg x s hp⟩]
  | draw x y n =>
    by_cases hp : inMemory (indexAddr s) n.toNat = true <;> [exact ⟨_, execDraw_pos x y n s hp⟩; exact ⟨_, execDraw_neg x y n s hp⟩]
  | _ => exact ⟨_, rfl⟩

/-- What a completed handler does to memory: nothing, or a write inside the address space (R52, R53). -/
theorem exec_mem {i : Instr} {s t : State} (h : exec i s = .next t) :
    t.mem = s.mem ∨
    ∃ bs, (∃ x, i = .storeBcd x ∨ i = .storeRegs x) ∧ s.i.toNat + bs.length ≤ Config.memSize ∧
      t.mem = s.mem.writeBytes s.cfg.font s.i.toNat bs := by
  cases i with
  | ret z =>
    by_cases hp : 0 < s.sp.val
    · rw [exec, execRet_pos z s hp] at h; cases h; exact .inl rfl
    · rw [exec, execRet_neg z s hp] at h; cases h; exact .inl rfl
  | call nnn =>
    by_cases hp : s.sp.val < 16
    · rw [exec, execCall_pos nnn s hp] at h; cases h; exact .inl rfl
    · rw [exec, execCall_neg nnn s hp] at h; cases h; exact .inl rfl
  | waitKey x => simp only [exec, execWaitKey] at h; split at h <;> cases h <;> exact .inl rfl
  | skipKeyPressed x => simp only [exec, execSkipKeyPressed] at h; split at h <;> cases h <;> exact .inl rfl
  | skipKeyNotPressed x => simp only [exec, execSkipKeyNotPressed] at h; split at h <;> cases h <;> exact .inl rfl
  | storeBcd x =>
    by_cases hp : inMemory (indexAddr s) 3 = true
    · rw [exec, execStoreBcd_pos x s hp] at h; cases h
      refine .inr ⟨_, ⟨x, .inl rfl⟩, ?_, rfl⟩
      have := (inMemory_iff _ _).1 hp
      rw [length_bcdBytes]; unfold indexAddr at this; unfold Config.memSize; omega
    · rw [exec, execStoreBcd_neg x s hp, raise_eq] at h; cases h; exact .inl rfl
  | storeRegs x =>
    by_cases hp : inMemory (indexAddr s) (regCount x) = true
    · rw [exec, execStoreRegs_pos x s hp] at h; cases h
      refine .inr ⟨_, ⟨x, .inr rfl⟩, ?_, rfl⟩
      have := (inMemory_iff _ _).1 hp
      rw [length_regBytes]; unfold indexAddr regCount at this; unfold Config.memSize; omega
    · rw [exec, execStoreRegs_neg x s hp, raise_eq] at h; cases h; exact .inl rfl
  | loadRegs x =>
    by_cases hp : inMemory (indexAddr s) (regCount x) = true
    · rw [exec, execLoadRegs_pos x s hp] at h; cases h; exact .inl rfl
    · rw [exec, execLoadRegs_neg x s hp, raise_eq] at h; cases h; exact .inl rfl
  | draw x y n =>
    by_cases hp : inMemory (indexAddr s) n.toNat = true
    · rw [exec, execDraw_pos x y n s hp] at h; cases h; exact .inl (by simp)
    · rw [exec, execDraw_neg x y n s hp, raise_eq] at h; cases h; exact .inl rfl
  | addReg x y | subReg x y | shr x y | subnReg x y | shl x y => cases h; exact .inl (by simp)
  | _ => cases h; exact .inl rfl

/-! ### The end of an instruction -/

@[simp] theorem finish_outcome (t : State) : (finish t).outcome = .completed := by
  unfold finish; split <;> rfl

theorem finish_state (t : State) :
    (finish t).state = if t.cfg.timerSource = .perInstruction then t.decayTimers.1 else t := by
  unfold finish; split <;> simp_all

theorem finish_soundEdge (t : State) :
    (finish t).soundEdge = true ↔ t.cfg.timerSource = .perInstruction ∧ t.st = 1 := by
  unfold finish; split <;> simp_all

/-- What the end of an instruction leaves: every field but the timers as the handler left it. -/
theorem finish_fields (t : State) : ∃ d e, (finish t).state = { t with dt := d, st := e } := by
  unfold finish; split <;> exact ⟨_, _, rfl⟩

theorem settle_running {t : State} (h : t.mode = .running) : settle t = finish t := by simp [settle, h]

theorem settle_awaiting {t : State} {x : Nibble} (h : t.mode = .awaitingKey x) : settle t = ⟨t, .blocked, false⟩ := by
  simp [settle, h]

theorem settle_halted {t : State} (h : t.mode = .halted) : settle t = ⟨t, .faulted, false⟩ := by simp [settle, h]

/-- What is left after a handler: its state with the timers decayed at most, and never an outcome Halted. -/
theorem settle_fields (t : State) : (∃ d e, (settle t).state = { t with dt := d, st := e }) ∧ (settle t).outcome ≠ .halted := by
  unfold settle
  split
  · exact ⟨finish_fields t, by simp⟩
  · exact ⟨⟨t.dt, t.st, rfl⟩, by simp⟩
  · exact ⟨⟨t.dt, t.st, rfl⟩, by simp⟩

/-! ### The step -/

theorem strobeStep_running {s t : State} (hm : s.mode = .running) (hf : s.canFetch = true)
    (he : exec (decodeWord s.fetchWord) s = .next t) : strobeStep s = .next (settle t) := by
  simp [strobeStep, stepRunning, hm, hf, he]

theorem strobeStep_noFetch {s : State} (hm : s.mode = .running) (hf : s.canFetch = false) :
    strobeStep s = .next ⟨s.enterFatal .pcOutOfBounds s.pc 0x0000, .faulted, false⟩ := by
  simp [strobeStep, stepRunning, hm, hf, settle]

theorem strobeStep_awaiting {s : State} {x : Nibble} (hm : s.mode = .awaitingKey x) :
    strobeStep s = .next (stepAwaiting x s) := by
  simp [strobeStep, hm]

theorem strobeStep_halted {s : State} (hm : s.mode = .halted) : strobeStep s = .next ⟨s, .halted, false⟩ := by
  simp [strobeStep, hm]

/-- The four ways a strobe can go (R106): it always answers, and says which. -/
theorem strobeStep_cases (s : State) :
    (s.mode = .halted ∧ strobeStep s = .next ⟨s, .halted, false⟩) ∨
    (∃ x, s.mode = .awaitingKey x ∧ strobeStep s = .next (stepAwaiting x s)) ∨
    (s.mode = .running ∧ s.canFetch = false ∧
      strobeStep s = .next ⟨s.enterFatal .pcOutOfBounds s.pc 0x0000, .faulted, false⟩) ∨
    (s.mode = .running ∧ s.canFetch = true ∧
      ∃ t, exec (decodeWord s.fetchWord) s = .next t ∧ strobeStep s = .next (settle t)) := by
  cases hm : s.mode with
  | halted => exact .inl ⟨rfl, strobeStep_halted hm⟩
  | awaitingKey x => exact .inr (.inl ⟨x, rfl, strobeStep_awaiting hm⟩)
  | running =>
    cases hf : s.canFetch with
    | false => exact .inr (.inr (.inl ⟨rfl, rfl, strobeStep_noFetch hm hf⟩))
    | true =>
      obtain ⟨t, ht⟩ := exec_answers (decodeWord s.fetchWord) s
      exact .inr (.inr (.inr ⟨rfl, rfl, t, ht, strobeStep_running hm hf ht⟩))

theorem stepAwaiting_outcome (x : Nibble) (s : State) : (stepAwaiting x s).outcome ≠ .halted := by
  unfold stepAwaiting; split <;> simp

theorem step_eq_of_strobe {s : State} {r : StepResult} (h : strobeStep s = .next r) (hr : r.outcome ≠ .halted) :
    step s = .next r.state := by
  obtain ⟨t, o, e⟩ := r
  cases o <;> simp_all [step]

theorem step_halted {s : State} (hm : s.mode = .halted) : step s = .fault .halted := by
  simp [step, strobeStep_halted hm]

theorem step_running {s t : State} (hm : s.mode = .running) (hf : s.canFetch = true)
    (he : exec (decodeWord s.fetchWord) s = .next t) : step s = .next (settle t).state :=
  step_eq_of_strobe (strobeStep_running hm hf he) (settle_fields t).2

theorem step_noFetch {s : State} (hm : s.mode = .running) (hf : s.canFetch = false) :
    step s = .next (s.enterFatal .pcOutOfBounds s.pc 0x0000) :=
  step_eq_of_strobe (strobeStep_noFetch hm hf) (by simp)

theorem step_awaiting {s : State} {x : Nibble} (hm : s.mode = .awaitingKey x) : step s = .next (stepAwaiting x s).state :=
  step_eq_of_strobe (strobeStep_awaiting hm) (stepAwaiting_outcome x s)

/-- What a step that answers a next state did: fetched nothing, ran one instruction, or stood at a suspended WAIT-KEY. -/
theorem step_cases {s t : State} (h : step s = .next t) :
    (∃ x, s.mode = .awaitingKey x ∧ t = (stepAwaiting x s).state) ∨
    (s.mode = .running ∧ s.canFetch = false ∧ t = s.enterFatal .pcOutOfBounds s.pc 0x0000) ∨
    (s.mode = .running ∧ s.canFetch = true ∧
      ∃ u, exec (decodeWord s.fetchWord) s = .next u ∧ t = (settle u).state) := by
  cases hm : s.mode with
  | halted => rw [step_halted hm] at h; cases h
  | awaitingKey x => rw [step_awaiting hm] at h; cases h; exact .inl ⟨x, rfl, rfl⟩
  | running =>
    cases hf : s.canFetch with
    | false => rw [step_noFetch hm hf] at h; cases h; exact .inr (.inl ⟨rfl, rfl, rfl⟩)
    | true =>
      obtain ⟨u, hu⟩ := exec_answers (decodeWord s.fetchWord) s
      rw [step_running hm hf hu] at h; cases h
      exact .inr (.inr ⟨rfl, rfl, u, hu, rfl⟩)

/-- The host's STEP action is the machine's step, but that in Halted mode it changes nothing (R108). -/
theorem act_step {s t : State} (h : act .step s = .next t) : step s = .next t ∨ (s.mode = .halted ∧ t = s) := by
  rcases strobeStep_cases s with ⟨hm, hs⟩ | ⟨x, hm, hs⟩ | ⟨hm, hf, hs⟩ | ⟨hm, hf, u, hu, hs⟩
  · rw [act, hs] at h; cases h; exact .inr ⟨hm, rfl⟩
  · rw [act, hs] at h; cases h; exact .inl (step_awaiting hm)
  · rw [act, hs] at h; cases h; exact .inl (step_noFetch hm hf)
  · rw [act, hs] at h; cases h; exact .inl (step_running hm hf hu)

/-! ### The drawn key -/

/-- Where some key is pressed, the key captured is a pressed one (R107). -/
theorem pickFrom_pressed (keys : BitVec 16) (fuel : Nat) (c : Nibble)
    (h : ∃ j, j ≤ fuel ∧ keys.getLsbD (c + BitVec.ofNat 4 j).toNat = true) :
    keys.getLsbD (pickFrom keys fuel c).toNat = true := by
  induction fuel generalizing c with
  | zero =>
    obtain ⟨j, hj, hk⟩ := h
    obtain rfl : j = 0 := by omega
    simpa [pickFrom] using hk
  | succ n ih =>
    unfold pickFrom
    split
    · next h => exact h
    · next hc =>
      obtain ⟨j, hj, hk⟩ := h
      cases j with
      | zero => exact absurd (by simpa using hk) hc
      | succ m =>
        refine ih (c + 1) ⟨m, by omega, ?_⟩
        have e : c + 1 + BitVec.ofNat 4 m = c + BitVec.ofNat 4 (m + 1) := by
          rw [BitVec.add_assoc, Nat.add_comm m 1, BitVec.ofNat_add]; rfl
        rwa [e]

theorem pickKey_pressed {keys : BitVec 16} {k : Nibble} (c : Nibble) (h : keys.getLsbD k.toNat = true) :
    keys.getLsbD (pickKey keys c).toNat = true := by
  refine pickFrom_pressed keys 15 c ⟨(k - c).toNat, by have := (k - c).isLt; omega, ?_⟩
  rw [BitVec.ofNat_toNat, BitVec.setWidth_eq, BitVec.add_comm, BitVec.sub_add_cancel]
  exact h

/-- No key pressed is the key vector 0. -/
theorem keys_eq_zero_iff (s : State) : s.keys = 0 ↔ ∀ k, s.key k = false := by
  constructor
  · intro h k; simp [State.key, h]
  · intro h
    apply BitVec.eq_of_getLsbD_eq
    intro j hj
    have := h (BitVec.ofNat 4 j)
    simp only [State.key, BitVec.toNat_ofNat] at this
    rw [Nat.mod_eq_of_lt (by omega)] at this
    simpa using this

/-- A key the input names, where it is pressed, is the one captured. -/
theorem pickKey_of_pressed {keys : BitVec 16} {c : Nibble} (h : keys.getLsbD c.toNat = true) : pickKey keys c = c := by
  simp [pickKey, pickFrom, h]

end Sys2Proof.Machine
end

