-- ==== Sys2Proof/Tests/Slice0.lean ====
section
/-! SUPPORT. The model's own tests. Expected results are the vectors of spec/95_test_vectors.md (named in each comment), the
words are written out from the formats of 30_encoding.md R71 and R83, and every statement that has hypotheses has a witness
that meets them. -/

namespace Sys2Proof.Tests

open Sys2Proof Sys2Proof.Machine

/-! ### Well-formedness: one ill-formed term for each check -/

theorem test_wf_family0 : ∀ b ∈ family0Low, (Instr.nopLenient0 (0x3#4 ++ b)).wf = false := by decide
theorem test_wf_family8 : ∀ b ∈ family8Low, (Instr.nopLenient8 (0x12#8 ++ b)).wf = false := by decide
theorem test_wf_familyE : ∀ b ∈ familyELow, (Instr.nopLenientE (0x5#4 ++ b)).wf = false := by decide
theorem test_wf_familyF : ∀ b ∈ familyFLow, (Instr.nopLenientF (0x5#4 ++ b)).wf = false := by decide
theorem test_decode_rejects_one_byte : decode [0x12] = .error .truncated := by decide

/-! ### Decoding: a word of every constructor, bits written out from its format -/

theorem test_decode_control :
    decodeWord 0b0000_0011_1110_0000 = .clear 0x3 ∧ decodeWord 0b0000_0000_1110_1110 = .ret 0x0 ∧
    decodeWord 0b0001_0010_0011_0100 = .jump 0x234 ∧ decodeWord 0b0010_0011_0000_0000 = .call 0x300 ∧
    decodeWord 0b1011_1111_1111_1111 = .jumpOffset 0xFFF := by decide

theorem test_decode_skips :
    decodeWord 0b0011_0011_0001_0010 = .skipEqImm 0x3 0x12 ∧ decodeWord 0b0100_0011_0001_0010 = .skipNeImm 0x3 0x12 ∧
    decodeWord 0b0101_0001_0010_0001 = .skipEqReg 0x1 0x2 0x1 ∧
    decodeWord 0b1001_0001_0010_0001 = .skipNeReg 0x1 0x2 0x1 := by decide

theorem test_decode_alu :
    decodeWord 0b0110_1010_0011_1100 = .loadImm 0xA 0x3C ∧ decodeWord 0b0111_0001_1111_1111 = .addImm 0x1 0xFF ∧
    decodeWord 0b1000_0001_0010_0000 = .loadReg 0x1 0x2 ∧ decodeWord 0b1000_0001_0010_0001 = .orReg 0x1 0x2 ∧
    decodeWord 0b1000_0001_0010_0010 = .andReg 0x1 0x2 ∧ decodeWord 0b1000_0001_0010_0011 = .xorReg 0x1 0x2 ∧
    decodeWord 0b1000_0001_0010_0100 = .addReg 0x1 0x2 ∧ decodeWord 0b1000_0001_0010_0101 = .subReg 0x1 0x2 ∧
    decodeWord 0b1000_0001_1111_0110 = .shr 0x1 0xF ∧ decodeWord 0b1000_0001_0010_0111 = .subnReg 0x1 0x2 ∧
    decodeWord 0b1000_0001_0000_1110 = .shl 0x1 0x0 ∧ decodeWord 0b1100_0011_0000_1111 = .random 0x3 0x0F := by decide

theorem test_decode_index_display_keys :
    decodeWord 0b1010_0011_0000_0000 = .loadI 0x300 ∧ decodeWord 0b1101_1010_1011_0010 = .draw 0xA 0xB 0x2 ∧
    decodeWord 0b1110_0101_1001_1110 = .skipKeyPressed 0x5 ∧ decodeWord 0b1110_0101_1010_0001 = .skipKeyNotPressed 0x5 ∧
    decodeWord 0b1111_0001_0000_0111 = .getDelay 0x1 ∧ decodeWord 0b1111_0011_0000_1010 = .waitKey 0x3 ∧
    decodeWord 0b1111_0000_0001_0101 = .setDelay 0x0 ∧ decodeWord 0b1111_0000_0001_1000 = .setSound 0x0 ∧
    decodeWord 0b1111_0010_0001_1110 = .addToI 0x2 ∧ decodeWord 0b1111_1100_0010_1001 = .loadFontAddr 0xC ∧
    decodeWord 0b1111_0000_0011_0011 = .storeBcd 0x0 ∧ decodeWord 0b1111_0001_0101_0101 = .storeRegs 0x1 ∧
    decodeWord 0b1111_0010_0110_0101 = .loadRegs 0x2 := by decide

/-- DE3 to DE7 and DE10. -/
theorem test_decode_lenient :
    decodeWord 0x0123 = .nopLenient0 0x123 ∧ decodeWord 0x0000 = .nopLenient0 0x000 ∧
    decodeWord 0x8008 = .nopLenient8 0x008 ∧ decodeWord 0x800F = .nopLenient8 0x00F ∧
    decodeWord 0xE000 = .nopLenientE 0x000 ∧ decodeWord 0xF0FF = .nopLenientF 0x0FF := by decide

theorem test_decodeTableWord : decodeTableWord 16 0x8124 = some (.addReg 1 2) ∧ decodeTableWord 16 0x10000 = none := by
  decide

/-! ### One step on a small state -/

/-- Reset with a chosen `VF_ORDER`, `RAND` and `KEY_CHOICE`, so that nothing free is left in it. -/
def base : State :=
  { State.reset with cfg := ⟨.flagLast, .perInstruction, Config.defaultFont⟩, rand := 0xA5, keyChoice := 2, redraw := false }

/-- `base` with registers set. -/
def withV (rs : List (Nibble × Byte)) : State := rs.foldl (fun s r => s.setV r.1 r.2) base

/-- The state after one step that runs the word `w`. -/
def after (w : Nat) (s : State) : State :=
  match step (s.withFetchWord 16 w) with
  | .next t => t
  | _       => base

/-- CF1. -/
theorem test_jump : (after 0x1234 base).pc = 0x0234 := by decide
/-- CF3, at depth 0; the call site is the CALL's own address. -/
theorem test_call : ((after 0x2300 base).stack[0], (after 0x2300 base).sp, (after 0x2300 base).pc) = (0x0200, 1, 0x0300) := by
  decide
/-- CF4. -/
theorem test_call_overflow :
    let t := after 0x2300 { base with sp := 16 }
    (t.mode, t.faultCause, t.faultPc, t.faultInstr, t.pc) = (.halted, some .stackOverflow, 0x0200, 0x2300, 0x0200) := by decide
/-- CF5. -/
theorem test_ret :
    let t := after 0x00EE { base with sp := 1, stack := base.stack.set 0 0x0204 }
    (t.sp, t.pc) = (0, 0x0206) := by decide
/-- CF6. -/
theorem test_ret_underflow : (after 0x00EE base).faultCause = some .stackUnderflow := by decide
/-- CF7, CF8. -/
theorem test_skipEqImm : (after 0x3312 (withV [(3, 0x12)])).pc = 0x0204 ∧ (after 0x3312 (withV [(3, 0x13)])).pc = 0x0202 := by
  decide
/-- CF9, CF10. -/
theorem test_skipNeImm : (after 0x4312 (withV [(3, 0x12)])).pc = 0x0202 ∧ (after 0x4312 base).pc = 0x0204 := by decide
/-- DE8. -/
theorem test_skipEqReg : (after 0x5121 (withV [(1, 3), (2, 3)])).pc = 0x0204 := by decide
/-- DE9. -/
theorem test_skipNeReg : (after 0x9121 (withV [(1, 3), (2, 3)])).pc = 0x0202 := by decide
/-- CF14. -/
theorem test_jumpOffset : (after 0xBFFF (withV [(0, 0xFF)])).pc = 0x10FE := by decide
/-- AL1. -/
theorem test_loadImm : (after 0x6A3C base).getV 0xA = 0x3C := by decide
/-- AL3: no carry. -/
theorem test_addImm : ((after 0x7101 (withV [(1, 0xFF)])).getV 1, (after 0x7101 (withV [(1, 0xFF)])).getV 0xF) = (0, 0) := by
  decide
/-- AL5. -/
theorem test_loadReg : (after 0x8120 (withV [(2, 0x99)])).getV 1 = 0x99 := by decide
/-- AL6: VF unchanged. -/
theorem test_orReg :
    let t := after 0x8121 (withV [(1, 0x0F), (2, 0xF0), (0xF, 5)])
    (t.getV 1, t.getV 0xF) = (0xFF, 5) := by decide
/-- AL7. -/
theorem test_andReg : (after 0x8122 (withV [(1, 0x3C), (2, 0x0F)])).getV 1 = 0x0C := by decide
/-- AL8. -/
theorem test_xorReg : (after 0x8123 (withV [(1, 0x3C), (2, 0x0F)])).getV 1 = 0x33 := by decide
/-- AL24: the old VF is the addend. -/
theorem test_addReg : ((after 0x81F4 (withV [(1, 0x10), (0xF, 0xF0)])).getV 1, (after 0x81F4 (withV [(1, 0x10), (0xF, 0xF0)])).getV 0xF) = (0, 1) := by
  decide
/-- AL28: x = F under both values of `VF_ORDER`. -/
theorem test_addReg_flagReg :
    let s := withV [(0xF, 0xFF), (0xE, 1)]
    ((after 0x8FE4 s).getV 0xF, (after 0x8FE4 { s with cfg := ⟨.resultLast, .perInstruction, Config.defaultFont⟩ }).getV 0xF) = (1, 0) := by
  decide
/-- AL14: strict. -/
theorem test_subReg : ((after 0x8125 (withV [(1, 5), (2, 5)])).getV 1, (after 0x8125 (withV [(1, 5), (2, 5)])).getV 0xF) = (0, 0) := by
  decide
/-- AL18: y is not read. -/
theorem test_shr : ((after 0x81F6 (withV [(1, 4), (0xF, 9)])).getV 1, (after 0x81F6 (withV [(1, 4), (0xF, 9)])).getV 0xF) = (2, 0) := by
  decide
/-- AL20. -/
theorem test_subnReg : ((after 0x8127 (withV [(1, 2), (2, 1)])).getV 1, (after 0x8127 (withV [(1, 2), (2, 1)])).getV 0xF) = (0xFF, 0) := by
  decide
/-- S5. -/
theorem test_shl : ((after 0x810E (withV [(1, 0x81)])).getV 1, (after 0x810E (withV [(1, 0x81)])).getV 0xF) = (2, 1) := by
  decide
/-- AL25. -/
theorem test_random : (after 0xC30F base).getV 3 = 0x05 := by decide
/-- MI1. -/
theorem test_loadI : (after 0xA300 base).i = 0x0300 := by decide
/-- MI3. -/
theorem test_addToI : (after 0xF21E { withV [(2, 2)] with i := 0xFFFF }).i = 0x0001 := by decide
/-- MI15: not masked. -/
theorem test_loadFontAddr : (after 0xF029 (withV [(0, 0xFF)])).i = 0x04FB := by decide
/-- MI4, and I unchanged. -/
theorem test_storeBcd : (after 0xF033 { withV [(0, 0xFF)] with i := 0x0300 }).readBytes 0x300 3 = [2, 5, 5] := by decide
/-- MI8. -/
theorem test_storeBcd_fault : (after 0xF033 { base with i := 0x0FFE }).faultCause = some .memOutOfBounds := by decide
/-- R174's example. -/
theorem test_storeRegs : (after 0xF155 { withV [(0, 0x11), (1, 0x22)] with i := 0x0300 }).readBytes 0x300 3 = [0x11, 0x22, 0] := by
  decide
/-- MI16: a store over the next instruction is fetched. -/
theorem test_storeRegs_selfModify : (after 0xF055 { withV [(0, 0x12)] with i := 0x0202 }).fetchWord = 0x1200 := by decide
/-- R175's example, from the font: glyph 0. -/
theorem test_loadRegs : (after 0xF265 base).v.toList.take 4 = [0xF0, 0x90, 0x90, 0] := by decide
/-- MI13. -/
theorem test_loadRegs_fault : (after 0xF165 { base with i := 0x1000 }).faultCause = some .memOutOfBounds := by decide
/-- DE1. -/
theorem test_clear : ((after 0x00E0 { base with fb := base.fb.put 3 4 true }).pixel 3 4, (after 0x00E0 base).redraw) = (false, true) := by
  decide
/-- DR4: row wrap, from the font byte 0xF0 at address 0. -/
theorem test_draw_wraps :
    let t := after 0xD011 (withV [(0, 62), (1, 31)])
    ([t.pixel 61 31, t.pixel 62 31, t.pixel 63 31, t.pixel 0 31, t.pixel 1 31, t.pixel 2 31], t.getV 0xF) =
      ([false, true, true, true, true, false], 0) := by decide
/-- DR2: a set pixel turned off collides. -/
theorem test_draw_collides :
    let t := after 0xD011 { base with fb := base.fb.put 0 0 true }
    (t.pixel 0 0, t.getV 0xF, t.redraw) = (false, 1, true) := by decide
/-- KY1, KY2. -/
theorem test_skipKeyPressed :
    (after 0xE59E { withV [(5, 7)] with keys := 0x0080 }).pc = 0x0204 ∧ (after 0xE59E (withV [(5, 7)])).pc = 0x0202 := by decide
/-- KY5. -/
theorem test_skipKeyPressed_fault : (after 0xE59E (withV [(5, 0x10)])).faultCause = some .keyIndexOutOfRange := by decide
/-- KY3, KY4. -/
theorem test_skipKeyNotPressed :
    (after 0xE5A1 { withV [(5, 7)] with keys := 0x0080 }).pc = 0x0202 ∧ (after 0xE5A1 (withV [(5, 7)])).pc = 0x0204 := by decide
/-- TM1. -/
theorem test_getDelay : ((after 0xF107 { base with dt := 4 }).getV 1, (after 0xF107 { base with dt := 4 }).dt) = (4, 3) := by
  decide
/-- TM2. -/
theorem test_setDelay : (after 0xF015 (withV [(0, 5)])).dt = 4 := by decide
/-- TM3, TM5. -/
theorem test_setSound :
    (match strobeStep ((withV [(0, 1)]).withFetchWord 16 0xF018) with | .next r => (r.state.st, r.soundEdge) | _ => (9, false)) = (0, true) ∧
    (match strobeStep ({ base with st := 7 }.withFetchWord 16 0xF018) with | .next r => (r.state.st, r.soundEdge) | _ => (9, true)) = (0, false) := by
  decide
/-- KY6: suspended, no decay. -/
theorem test_waitKey_suspends :
    let t := after 0xF30A { base with dt := 5 }
    (t.mode, t.pc, t.dt) = (.awaitingKey 3, 0x0200, 5) := by decide
/-- KY10: the key the draw names. -/
theorem test_waitKey_captures : (after 0xF30A { base with keys := 0x0204 }).getV 3 = 0x02 := by decide
/-- DE3 to DE7. -/
theorem test_nopLenient :
    ([0x0123, 0x8008, 0xE000, 0xF0FF].map fun w => ((after w base).lenientCount, (after w base).pc)) =
      [(1, 0x202), (1, 0x202), (1, 0x202), (1, 0x202)] := by decide

/-! ### Steps in the other modes, and the host's port -/

/-- KY8. -/
theorem test_awaiting_captures :
    (match step { base with mode := .awaitingKey 3, keys := 0x0400, dt := 5 } with
     | .next t => (t.getV 3, t.pc, t.mode, t.dt) | _ => (0, 0, .halted, 0)) = (0x0A, 0x0202, .running, 4) := by decide
/-- CF17. -/
theorem test_fetch_fault :
    (match step { base with pc := 0x0FFF } with
     | .next t => (t.faultCause, t.faultPc, t.faultInstr) | _ => (none, 0, 0)) = (some .pcOutOfBounds, 0x0FFF, 0) := by decide
/-- TM6. -/
theorem test_tick :
    let s := { base with cfg := ⟨.flagLast, .externalTick, Config.defaultFont⟩, dt := 1, st := 1 }
    (s.tick.1.dt, s.tick.1.st, s.tick.2) = (0, 0, true) := by decide
/-- FR3. -/
theorem test_reset_keeps_keys : ({ base with keys := 0x0010, mode := .halted, pc := 7 }.strobeReset).keys = 0x0010 := by decide
/-- R263: REDRAW and AwaitingKey(3). -/
theorem test_status : ({ base with redraw := true, mode := .awaitingKey 3 } : State).hostRead 0x015 = 0x33 := by decide

/-! ### Witnesses: concrete states and operands that meet the hypotheses of the statements, each clause at its boundary -/

/-- `base` with the word `w` at 0x200, about to be fetched. -/
def at200 (w : Nat) : State := base.withFetchWord 16 w

/-- `base` under RESULT_LAST. -/
def resultLast : State := { base with cfg := ⟨.resultLast, .perInstruction, Config.defaultFont⟩ }

/-- A state under EXTERNAL_TICK with the word `w` at 0x200. -/
def external (w : Nat) : State := { base with cfg := ⟨.flagLast, .externalTick, Config.defaultFont⟩ }.withFetchWord 16 w

/-- `base` suspended at 0x200 in WAIT-KEY V3. -/
def suspended : State := { at200 0xF30A with mode := .awaitingKey 3 }

theorem witness_DecodeOfEncodeIsTheInstruction :
    (Instr.clear 3).wf = true ∧ (Instr.skipEqReg 1 2 0xF).wf = true ∧ (Instr.nopLenientF 0x0FF).wf = true := by decide

theorem witness_EveryWordIsOneInstruction :
    (Instr.nopLenient8 0x00F).wf = true ∧ encode (.nopLenient8 0x00F) = 0x800F := by decide

/-- x = F under each `VF_ORDER`, and a sum on each side of 255. -/
theorem witness_WritesResultAndFlag :
    base.cfg.vfOrder = .flagLast ∧ resultLast.cfg.vfOrder = .resultLast ∧ (1 : Nibble) ≠ 0xF ∧
    (let s := withV [(1, 0xFE), (2, 1), (3, 2)]
     ¬ (s.getV 1).toNat + (s.getV 2).toNat > 255 ∧ (s.getV 1).toNat + (s.getV 3).toNat > 255) := by decide

theorem witness_CallPushesTheCallSite :
    ({ base with sp := 15 } : State).sp.val < 16 ∧ ({ base with sp := 16 } : State).sp.val = 16 := by decide

theorem witness_ReturnPopsTheCallSitePlusTwo :
    ({ base with sp := 1 } : State).sp.val = (0 : Fin 16).val + 1 ∧
    ({ base with sp := 16 } : State).sp.val = (15 : Fin 16).val + 1 ∧ base.sp.val = 0 := by decide

theorem witness_CallThenReturnResumesAfterTheCall : ({ base with sp := 15 } : State).sp.val < 16 := by decide

theorem witness_StoreBcdWritesThreeDigits :
    ({ base with i := 0xFFD } : State).i.toNat + 2 ≤ 0xFFF ∧ ({ base with i := 0xFFE } : State).i.toNat + 2 > 0xFFF := by
  decide

/-- The last address with one register and with sixteen, and one past it. -/
theorem witness_StoreRegs_LoadRegs :
    ({ base with i := 0xFFF } : State).i.toNat + (0 : Nibble).toNat ≤ 0xFFF ∧
    ({ base with i := 0xFF0 } : State).i.toNat + (15 : Nibble).toNat ≤ 0xFFF ∧
    ({ base with i := 0xFFF } : State).i.toNat + (1 : Nibble).toNat > 0xFFF ∧ (7 : Nibble).toNat ≤ (7 : Nibble).toNat := by
  decide

theorem witness_StoreRegsThenLoadRegsRestores :
    ∃ s t u : State, s.i.toNat + (0xF : Nibble).toNat ≤ 0xFFF ∧ exec (.storeRegs 0xF) s = .next t ∧
      UnchangedBut (.pc :: regParts 0xF) t u ∧ t.getV 2 = 0x77 ∧ u.getV 2 = 0 := by
  have hz : ∀ t : State, UnchangedBut (.pc :: regParts 0xF) t { t with v := Vector.replicate 16 0, pc := 0x200 } := by
    intro t p hp
    cases p <;> first
      | rfl
      | exact absurd (by decide) hp
      | exact absurd ((by decide : ∀ r : Nibble, Part.v r ∈ Part.pc :: regParts 0xF) _) hp
  exact ⟨{ withV [(2, 0x77)] with i := 0xFF0 }, _, _, by decide, rfl, hz _, by decide, by decide⟩

/-- No row; the last row at the last address; the last row one past it; a pixel on under the sprite. -/
theorem witness_DrawInvertsExactlyTheSpritePixels :
    (let s : State := { base with i := 0xFFF }
     s.i.toNat + (1 : Nibble).toNat - 1 ≤ 0xFFF ∧ 0 < (2 : Nibble).toNat ∧ s.i.toNat + (2 : Nibble).toNat - 1 > 0xFFF) ∧
    (let s : State := { base with fb := base.fb.put 0 0 true }
     ∃ cx cy, SpriteOn s 0 0 1 cx cy ∧ s.pixel cx cy = true) ∧
    ¬ ∃ cx cy, SpriteOn base 0 0 0 cx cy ∧ base.pixel cx cy = true := by
  refine ⟨by decide, ⟨0, 0, ⟨0, 0, by decide⟩, by decide⟩, ?_⟩
  rintro ⟨_, _, ⟨row, _, h, _⟩, _⟩
  exact Nat.not_lt_zero row h

theorem witness_DrawingTwiceRestoresTheScreen :
    (0 : Nibble) ≠ 0xF ∧ (1 : Nibble) ≠ 0xF ∧ ({ base with i := 0xFF1 } : State).i.toNat + (15 : Nibble).toNat ≤ 0x1000 ∧
    ∃ cx cy, SpriteOn base 0 1 5 cx cy ∧ base.pixel cx cy = false :=
  ⟨by decide, by decide, by decide, 0, 4, ⟨4, 0, by decide⟩, by decide⟩

theorem witness_KeySkipsTestTheNamedKey :
    (withV [(5, 0x0F)]).getV 5 = (0xF : Nibble).setWidth 8 ∧ ((withV [(5, 0x10)]).getV 5).toNat > 0x0F := by decide

/-- No key; the key the draw names; a key it does not name. -/
theorem witness_WaitKeySuspendsOrCaptures :
    (∀ k, base.key k = false) ∧ ({ base with keys := 0x0004 } : State).key base.keyChoice = true ∧
    ({ base with keys := 0x8000 } : State).key 0xF = true := by decide

theorem witness_LenientNoOpCountsItself :
    Instr.nopLenientF 0x0FF ∈
      [Instr.nopLenient0 0x0FF, Instr.nopLenient8 0x0FF, Instr.nopLenientE 0x0FF, Instr.nopLenientF 0x0FF] := by decide

/-- A destination, a block load and a flag. -/
theorem witness_RegistersChangeOnlyAsNamedOrAsFlag :
    (∃ t, exec (.loadImm 3 7) base = .next t ∧ t.getV 3 ≠ base.getV 3) ∧
    (∃ t, exec (.loadRegs 2) base = .next t ∧ t.getV 2 ≠ base.getV 2) ∧
    (∃ t, exec (.subReg 1 2) (withV [(1, 5)]) = .next t ∧ t.getV 0xF ≠ (withV [(1, 5)]).getV 0xF) :=
  ⟨⟨_, rfl, by decide⟩, ⟨_, rfl, by decide⟩, ⟨_, rfl, by decide⟩⟩

theorem witness_IndexStackTimersChangeOnlyByTheirWriters :
    (∃ t, exec (.loadI 0x300) base = .next t ∧ t.i ≠ base.i) ∧
    (∃ t, exec (.call 0x300) base = .next t ∧ t.stack ≠ base.stack ∧ t.sp ≠ base.sp) ∧
    (∃ t, exec (.setDelay 1) (withV [(1, 5)]) = .next t ∧ t.dt ≠ base.dt) ∧
    (∃ t, exec (.setSound 1) (withV [(1, 5)]) = .next t ∧ t.st ≠ base.st) ∧
    (∃ t, exec (.nopLenient0 0) base = .next t ∧ t.lenientCount ≠ base.lenientCount) :=
  ⟨⟨_, rfl, by decide⟩, ⟨_, rfl, by decide⟩, ⟨_, rfl, by decide⟩, ⟨_, rfl, by decide⟩, ⟨_, rfl, by decide⟩⟩

theorem witness_MemoryChangesOnlyByStoresAndReset :
    (∃ t, act .step { at200 0xF033 with i := 0x300, v := Vector.replicate 16 0xFF } = .next t ∧
      t.readByte 0x302 ≠ (at200 0xF033).readByte 0x302) ∧
    (∃ t, act .reset (at200 0x1234) = .next t ∧ t.readByte 0x200 ≠ (at200 0x1234).readByte 0x200) :=
  ⟨⟨_, rfl, by decide⟩, ⟨_, rfl, by decide⟩⟩

theorem witness_PixelsChangeOnlyByClearDrawAndReset :
    (∃ t, act .step (at200 0xD005) = .next t ∧ t.pixel 0 0 ≠ (at200 0xD005).pixel 0 0) ∧
    (∃ t, act .reset { base with fb := base.fb.put 63 31 true } = .next t ∧
      t.pixel 63 31 ≠ ({ base with fb := base.fb.put 63 31 true } : State).pixel 63 31) :=
  ⟨⟨_, rfl, by decide⟩, ⟨_, rfl, by decide⟩⟩

theorem witness_RedrawIsSetByDrawingAndClearedByTheHost :
    (∃ t, act (.write 0x015 1) State.reset = .next t ∧ State.reset.redraw = true ∧ t.redraw = false) ∧
    (∃ t, act .reset base = .next t ∧ base.redraw = false ∧ t.redraw = true) ∧
    (∃ t, act .step (at200 0xD000) = .next t ∧ (at200 0xD000).mode = .running ∧ (at200 0xD000).canFetch = true ∧
      t.mode ≠ .halted ∧ decodeWord (at200 0xD000).fetchWord = .draw 0 0 0 ∧ t.redraw = true) :=
  ⟨⟨_, rfl, rfl, rfl⟩, ⟨_, rfl, rfl, rfl⟩, ⟨_, rfl, by decide⟩⟩

theorem witness_KeysAndConfigurationAreTheHosts :
    (∃ t, act (.write 0x019 0xFFFF8000) base = .next t ∧ t.keys ≠ base.keys) ∧
    (∃ t, act (.setKey 0xF true) base = .next t ∧ t.keys ≠ base.keys) := ⟨⟨_, rfl, by decide⟩, ⟨_, rfl, by decide⟩⟩

/-- At 0x200 and at the last address an instruction can stand at. -/
theorem witness_StepRunsTheDecodedInstruction :
    (∀ s ∈ [at200 0x8124, { base with pc := 0xFFE }.withFetchWord 16 0x8124],
      s.mode = .running ∧ s.pc.toNat + 1 ≤ 0xFFF ∧
      decode [s.readByte s.pc.toNat, s.readByte (s.pc.toNat + 1)] = .ok (.addReg 1 2, [])) ∧
    ∃ t, exec (.addReg 1 2) (at200 0x8124) = .next t := ⟨by decide, _, rfl⟩

theorem witness_FetchAboveMemoryIsFatal :
    base.mode = .running ∧ ({ base with pc := 0xFFF } : State).pc.toNat + 1 > 0xFFF ∧
    ({ base with pc := 0xFFFF } : State).pc.toNat + 1 > 0xFFF := by decide

theorem witness_AwaitingStepBlocksOrCaptures :
    suspended.mode = .awaitingKey 3 ∧ (∀ k, suspended.key k = false) ∧
    ({ suspended with keys := 0x8000 } : State).key 0xF = true := by decide

theorem witness_StepStopsExactlyWhenHalted :
    base.mode ≠ .halted ∧ ({ base with mode := .halted } : State).mode = .halted := by decide

theorem witness_ModeChangesOnlyAsTheTableSays :
    (∃ t, act .reset { base with mode := .halted } = .next t) ∧
    (∃ t, act .tick suspended = .next t ∧ t.mode = .awaitingKey 3) ∧
    (∃ t, act .step { base with mode := .halted } = .next t) ∧
    (∃ t, act .step suspended = .next t ∧ t.mode = .awaitingKey 3) ∧
    (∃ t, act .step { suspended with keys := 1 } = .next t ∧ t.mode = .running) ∧
    (∃ t, act .step (at200 0x1FFF) = .next t ∧ t.mode = .running) ∧
    (∃ t, act .step (at200 0x00EE) = .next t ∧ t.mode = .halted) ∧
    (∃ t, act .step (at200 0xF30A) = .next t ∧ (at200 0xF30A).keys = 0 ∧ (at200 0xF30A).canFetch = true ∧
      decodeWord (at200 0xF30A).fetchWord = .waitKey 3 ∧ t.mode = .awaitingKey 3) :=
  ⟨⟨_, rfl⟩, ⟨_, rfl, rfl⟩, ⟨_, rfl⟩, ⟨_, rfl, by decide⟩, ⟨_, rfl, by decide⟩, ⟨_, rfl, by decide⟩,
    ⟨_, rfl, by decide⟩, ⟨_, rfl, by decide⟩⟩

/-- A step that ends in each of the five causes. -/
theorem witness_FatalErrors :
    ∀ p ∈ [({ at200 0x2300 with sp := 16 }, FatalCause.stackOverflow), (at200 0x00EE, .stackUnderflow),
        ({ base with pc := 0xFFF }, .pcOutOfBounds), ({ at200 0xD001 with i := 0x1000 }, .memOutOfBounds),
        ({ at200 0xE09E with v := Vector.replicate 16 0x10 }, .keyIndexOutOfRange)],
      p.1.mode = .running ∧
      (match step p.1 with | .next t => (t.mode, t.faultCause) | _ => (.running, none)) = (.halted, some p.2) := by decide

theorem witness_TimersDecayOncePerCompletedInstruction :
    (∃ t, step { at200 0xF015 with dt := 9, st := 1 } = .next t ∧ t.mode = .running) ∧
    (∃ t, step (external 0xF015) = .next t ∧ t.mode = .running ∧ (external 0xF015).cfg.timerSource = .externalTick) ∧
    (∃ t, step { at200 0x00EE with dt := 9 } = .next t ∧ t.mode ≠ .running) :=
  ⟨⟨_, rfl, by decide⟩, ⟨_, rfl, by decide⟩, ⟨_, rfl, by decide⟩⟩

theorem witness_SoundEdgeFiresOnTheDecayFromOne :
    (∃ r, strobeStep { at200 0x6000 with st := 1 } = .next r ∧ r.soundEdge = true) ∧
    ({ external 0x6000 with st := 1 } : State).tick.2 = true := ⟨⟨_, rfl, by decide⟩, by decide⟩

/-- With the store at 0x200, and at the last place where a whole instruction follows it. -/
theorem witness_StoredBytesAreFetchedNext :
    ∀ s ∈ [{ at200 0xF255 with i := 0x202 }, { { base with pc := 0xFFC }.withFetchWord 16 0xF155 with i := 0xFFE }],
      s.mode = .running ∧ s.pc.toNat + 3 ≤ 0xFFF ∧ s.i = s.pc + 2 ∧
      ∃ x : Nibble, 1 ≤ x.toNat ∧ s.i.toNat + x.toNat ≤ 0xFFF ∧ decodeWord s.fetchWord = .storeRegs x := by decide

theorem witness_StaleStackAndCounterAreNeverObserved :
    ∃ s u t : State, s.stack ≠ u.stack ∧ s.lenientCount ≠ u.lenientCount ∧ step s = .next t ∧
      ∀ p : Part, p ≠ .lenientCount → (∀ j : Fin 16, p = .stack j → j.val < s.sp.val) → p.same s u := by
  refine ⟨at200 0x6001, { at200 0x6001 with stack := Vector.replicate 16 0x0FFE, lenientCount := 5 }, _, by decide, by decide,
    rfl, ?_⟩
  intro p hc hs
  cases p <;> first
    | rfl
    | exact absurd rfl hc
    | exact absurd (hs _ rfl) (Nat.not_lt_zero _)

theorem witness_PlacedWordIsTheNextInstruction :
    65535 < 65536 ∧ decodeTableWord 16 65535 = some (.nopLenientF 0xFFF) := by decide

/-- Canonical memory before a store; a PC at its bound; a suspended WAIT-KEY; a recorded fault; an action from each. -/
theorem witness_Invariants :
    ((at200 0xF033).MemoryCanonical ∧ ∃ t, act .step (at200 0xF033) = .next t) ∧
    (({ base with pc := 0x10FE } : State).PcBounded ∧ ∃ t, act .step { base with pc := 0x10FE } = .next t) ∧
    (suspended.AwaitsAtWaitKey ∧ ∃ t, act .step suspended = .next t) ∧
    ((after 0x00EE base).FaultRecorded ∧ ∃ t, act .reset (after 0x00EE base) = .next t) := by
  refine ⟨⟨by decide, _, rfl⟩, ⟨⟨by decide, ?_, ?_⟩, _, rfl⟩, ⟨?_, _, rfl⟩, ⟨⟨?_, ?_⟩, _, rfl⟩⟩
  · intro t h; exact absurd h (by decide +revert)
  · intro j h; exact absurd h (Nat.not_lt_zero _)
  · intro t h
    have ht : t = 3 := by simpa [suspended] using h.symm
    subst ht
    decide
  · intro h; exact absurd (by decide) h
  · intro _
    exact ⟨.stackUnderflow, by decide, ⟨0, by decide⟩, by decide, by decide, by decide⟩

theorem witness_StepKeepsTheInvariants : base.Inv ∧ ∃ t, step base = .next t := by
  refine ⟨⟨by decide, ⟨by decide, ?_, ?_⟩, ?_, ⟨?_, ?_⟩⟩, _, rfl⟩
  · intro t h; exact absurd h (by decide +revert)
  · intro j h; exact absurd h (Nat.not_lt_zero _)
  · intro t h; exact absurd h (by decide +revert)
  · intro _; decide
  · intro h; exact absurd h (by decide)

theorem witness_ResetAndLaunchMeetTheInvariants : ∃ t, launch base [0x12, 0x00] = .next t := ⟨_, rfl⟩

theorem witness_CanonicalMemoriesThatReadAlikeAreEqual :
    Memory.wf Config.defaultFont [(0x200, 0x12), (0xFFF, 1)] := by decide

theorem witness_LaunchPlacesTheImage :
    (List.replicate 0xE00 (0x12 : Byte)).length ≤ 0xE00 ∧ (List.replicate 0xE01 (0x12 : Byte)).length > 0xE00 := by
  rw [List.length_replicate, List.length_replicate]; decide

theorem witness_TickDecaysUnderExternalTickAlone :
    ((external 0).cfg.timerSource = .externalTick ∧ (external 0).mode ≠ .halted) ∧
    ({ base with mode := .halted } : State).mode = .halted ∧ base.cfg.timerSource = .perInstruction := by decide

/-- The first and last index, and the neighbours of STATUS and of KEYS, meet both hypotheses of the last clause. -/
theorem witness_HostWritesReachKeysAndRedrawAlone :
    ∀ index ∈ ([0x000, 0x014, 0x016, 0x018, 0x01A, 0x1FFF] : List (BitVec 13)), index ≠ 0x019 ∧ index ≠ 0x015 := by decide

theorem witness_StatusShowsRedrawModeAndWaitRegister :
    base.mode = .running ∧ ({ base with mode := .awaitingKey 0xF } : State).mode = .awaitingKey 0xF ∧
    ({ base with mode := .halted } : State).mode = .halted := by decide

/-- The first and the last index of each reserved range. -/
theorem witness_HostReadsEveryRegister :
    ∀ k ∈ [0x01B, 0x01F, 0x030, 0x0FF, 0x200, 0xFFF],
      ((0x01B ≤ k ∧ k ≤ 0x01F) ∨ (0x030 ≤ k ∧ k ≤ 0x0FF) ∨ (0x200 ≤ k ∧ k ≤ 0xFFF)) ∧
      base.hostRead (BitVec.ofNat 13 k) = 0 := by decide

end Sys2Proof.Tests
end

section
/-! PROOFS. Control flow (spec 41_control_flow.md): the handlers that write PC and nothing else. -/

namespace Sys2Proof.Machine

/-- Writing PC leaves every other part of the state as it was (R24). -/
theorem unchangedBut_goto (s : State) (w : Word) : UnchangedBut [.pc] s (s.goto w) := by
  intro p hp
  cases p with
  | pc => exact absurd (List.mem_singleton_self _) hp
  | _ => rfl

/-! ### Jumps (R121, R127) -/

theorem exec_jump (nnn : Imm12) (s : State) : exec (.jump nnn) s = .next (s.goto (immAddr nnn)) := rfl

theorem exec_jumpOffset (nnn : Imm12) (s : State) : exec (.jumpOffset nnn) s = .next (s.goto (offsetTarget nnn s)) := rfl

@[simp] theorem toNat_immAddr (nnn : Imm12) : (immAddr nnn).toNat = nnn.toNat :=
  BitVec.toNat_setWidth_of_le (by decide)

/-- The sum of a 12-bit immediate and a byte fits in 16 bits, so the target of JUMP-OFFSET is exact (R127). -/
theorem toNat_offsetTarget (nnn : Imm12) (s : State) : (offsetTarget nnn s).toNat = nnn.toNat + (s.getV 0).toNat := by
  have hn : nnn.toWord.toNat = nnn.toNat := toNat_immAddr nnn
  have hv : (s.getV 0).toWord.toNat = (s.getV 0).toNat := BitVec.toNat_setWidth_of_le (by decide)
  have hfit : nnn.toNat + (s.getV 0).toNat < 2 ^ 16 := by have := nnn.isLt; have := (s.getV 0).isLt; omega
  rw [offsetTarget, BitVec.toNat_add, hn, hv, Nat.mod_eq_of_lt hfit]

/-- Settles O11: both handlers are one write of PC, and the sum of JUMP-OFFSET fits in its 16 bits. -/
theorem jumpsSetThePcAlone : Obligations.JumpsSetThePcAlone := fun s nnn =>
  ⟨⟨_, exec_jump nnn s, toNat_immAddr nnn, unchangedBut_goto s _⟩,
   ⟨_, exec_jumpOffset nnn s, toNat_offsetTarget nnn s, unchangedBut_goto s _⟩⟩

/-! ### Skips (R123 to R126, R210, R211) -/

/-- A handler that ends in `skipIf c` skips on `c`, and nothing but PC has changed. -/
theorem skipsWhen_of_exec {i : Instr} {s : State} {c : Bool} (h : exec i s = .next (s.skipIf c)) : SkipsWhen i s c :=
  ⟨s.skipIf c, h, s.skipIf_pc c, unchangedBut_goto s _⟩

theorem exec_skipEqImm (x : Nibble) (kk : Byte) (s : State) :
    exec (.skipEqImm x kk) s = .next (s.skipIf (s.getV x = kk)) := rfl

theorem exec_skipNeImm (x : Nibble) (kk : Byte) (s : State) :
    exec (.skipNeImm x kk) s = .next (s.skipIf (s.getV x ≠ kk)) := rfl

/-- Settles O15: both handlers end in a skip on their own comparison. -/
theorem immediateSkipsMoveThePcAlone : Obligations.ImmediateSkipsMoveThePcAlone := fun s x kk =>
  ⟨skipsWhen_of_exec (exec_skipEqImm x kk s), skipsWhen_of_exec (exec_skipNeImm x kk s)⟩

end Sys2Proof.Machine
end

section
/-! PROOFS. Register and ALU instructions (spec 42_register_alu.md): the handlers that write one register, and those that
write a result and the flag. -/

namespace Sys2Proof.Machine

/-! ### One register and PC -/

/-- Writing Vx and going on leaves every part of the state but Vx and PC as it was. -/
theorem unchangedBut_setV_advance (s : State) (x : Nibble) (b : Byte) :
    UnchangedBut [.v x, .pc] s (s.setV x b).advance := by
  intro p hp
  cases p with
  | v q =>
    have hq : q ≠ x := fun h => hp (by simp [h])
    exact s.getV_setV_ne b hq
  | pc => simp at hp
  | _ => rfl

/-- A handler that ends in `setV x b` and goes on leaves `b` in Vx, and nothing but Vx and PC has changed. -/
theorem writesReg_of_exec {i : Instr} {s : State} {x : Nibble} {b : Byte} (h : exec i s = .next (s.setV x b).advance) :
    WritesReg i s x b :=
  ⟨_, h, s.getV_setV_self x b, rfl, unchangedBut_setV_advance s x b⟩

theorem exec_loadImm (x : Nibble) (kk : Byte) (s : State) : exec (.loadImm x kk) s = .next (s.setV x kk).advance := rfl

theorem exec_addImm (x : Nibble) (kk : Byte) (s : State) :
    exec (.addImm x kk) s = .next (s.setV x (s.getV x + kk)).advance := rfl

theorem exec_loadReg (x y : Nibble) (s : State) : exec (.loadReg x y) s = .next (s.setV x (s.getV y)).advance := rfl

/-- Settles O5: each handler is one write of Vx, and a sum of bytes is the exact sum on 8 bits. -/
theorem plainRegisterInstructionsWriteVxAlone : Obligations.PlainRegisterInstructionsWriteVxAlone := fun s x y kk =>
  ⟨writesReg_of_exec (exec_loadImm x kk s),
   BitVec.add_def (s.getV x) kk ▸ writesReg_of_exec (exec_addImm x kk s),
   writesReg_of_exec (exec_loadReg x y s)⟩

/-! ### A result and the flag (R140) -/

/-- Writing a result and a flag and going on leaves every part of the state but Vx, VF and PC as it was. -/
theorem unchangedBut_writeResultAndFlag_advance (x : Nibble) (r : Byte) (f : Bool) (s : State) :
    UnchangedBut [.v x, .v 0xF, .pc] s (writeResultAndFlag x r f s).advance := by
  intro p hp
  cases p with
  | v q =>
    have hx : q ≠ x := fun h => hp (by simp [h])
    have hf : q ≠ flagReg := fun h => hp (by simp [h])
    exact getV_writeResultAndFlag_other r f s hx hf
  | pc => simp at hp
  | _ => simp [Part.same]

/-- A handler that ends in `writeResultAndFlag x r f` and goes on meets R140, for every exact result `n` that `r` is on 8
bits. -/
theorem writesResultAndFlag_of_exec {i : Instr} {s : State} {x : Nibble} {r : Byte} {n : Nat} {f : Bool}
    (h : exec i s = .next (writeResultAndFlag x r f s).advance) (hr : r = BitVec.ofNat 8 n) :
    WritesResultAndFlag i s x n f := by
  subst hr
  refine ⟨_, h, fun hx => ⟨?_, ?_⟩, ?_, ?_, by simp, unchangedBut_writeResultAndFlag_advance x _ f s⟩
  · exact (getV_writeResultAndFlag_ne _ f s x hx).trans (by rw [if_neg hx, if_pos rfl])
  · exact (getV_writeResultAndFlag_ne _ f s flagReg hx).trans (if_pos rfl)
  · rintro rfl hv
    exact (getV_writeResultAndFlag_flagReg _ f s flagReg).trans (by rw [if_pos rfl, hv, flagByte])
  · rintro rfl hv
    exact (getV_writeResultAndFlag_flagReg _ f s flagReg).trans (by rw [if_pos rfl, hv])

/-! ### ADD (R147) -/

theorem exec_addReg (x y : Nibble) (s : State) :
    exec (.addReg x y) s =
      .next (writeResultAndFlag x (s.getV x + s.getV y) (addFlag (s.getV x) (s.getV y)) s).advance := rfl

/-- Settles O7: the result is the exact sum on 8 bits, and the flag is `addFlag` as the statement writes it out. -/
theorem addSetsTheCarryFlag : Obligations.AddSetsTheCarryFlag := fun s x y =>
  writesResultAndFlag_of_exec (exec_addReg x y s) (BitVec.add_def _ _)

/-! ### SUB and SUBN (R148, R150) -/

theorem exec_subReg (x y : Nibble) (s : State) :
    exec (.subReg x y) s =
      .next (writeResultAndFlag x (s.getV x - s.getV y) (subFlag (s.getV x) (s.getV y)) s).advance := rfl

theorem exec_subnReg (x y : Nibble) (s : State) :
    exec (.subnReg x y) s =
      .next (writeResultAndFlag x (s.getV y - s.getV x) (subFlag (s.getV y) (s.getV x)) s).advance := rfl

/-- A difference of bytes is the exact difference modulo 256, with 256 added so that it is never negative. -/
theorem byte_sub_eq_ofNat (a b : Byte) : a - b = BitVec.ofNat 8 (256 + a.toNat - b.toNat) := by
  have hb : b.toNat < 256 := b.isLt
  rw [BitVec.sub_def]
  congr 1
  omega

/-- Settles O8: both handlers write a difference, and the flag is `subFlag` as the statement writes it out. -/
theorem subtractionsSetTheStrictlyGreaterFlag : Obligations.SubtractionsSetTheStrictlyGreaterFlag := fun s x y =>
  ⟨writesResultAndFlag_of_exec (exec_subReg x y s) (byte_sub_eq_ofNat _ _),
   writesResultAndFlag_of_exec (exec_subnReg x y s) (byte_sub_eq_ofNat _ _)⟩

/-! ### SHR and SHL (R149, R151) -/

theorem exec_shr (x y : Nibble) (s : State) :
    exec (.shr x y) s = .next (writeResultAndFlag x (s.getV x >>> 1) (shrFlag (s.getV x)) s).advance := rfl

theorem exec_shl (x y : Nibble) (s : State) :
    exec (.shl x y) s = .next (writeResultAndFlag x (s.getV x <<< 1) (shlFlag (s.getV x)) s).advance := rfl

theorem byte_shiftRight_one_eq_ofNat (a : Byte) : a >>> 1 = BitVec.ofNat 8 (a.toNat / 2) := by
  apply BitVec.eq_of_toNat_eq
  have ha := a.isLt
  rw [BitVec.toNat_ushiftRight, Nat.shiftRight_eq_div_pow, BitVec.toNat_ofNat, Nat.mod_eq_of_lt (by omega), pow_one]

theorem byte_shiftLeft_one_eq_ofNat (a : Byte) : a <<< 1 = BitVec.ofNat 8 (2 * a.toNat) := by
  apply BitVec.eq_of_toNat_eq
  rw [BitVec.toNat_shiftLeft, Nat.shiftLeft_eq, BitVec.toNat_ofNat, pow_one, Nat.mul_comm]

/-- Bit 0 of a byte is its remainder by 2 (R149). -/
theorem shrFlag_eq_decide (a : Byte) : shrFlag a = decide (a.toNat % 2 = 1) := by
  rw [shrFlag, BitVec.getLsbD, Nat.testBit_zero]

/-- Bit 7 of a byte is set exactly from 128 up (R151). -/
theorem shlFlag_eq_decide (a : Byte) : shlFlag a = decide (a.toNat ≥ 128) := by
  rw [shlFlag, ← BitVec.msb_eq_getLsbD_last, BitVec.msb_eq_decide]

/-- Settles O9: neither handler reads Vy; the result is the exact half or double on 8 bits, and the flag is the bit that
leaves the byte. -/
theorem shiftsSetTheBitShiftedOut : Obligations.ShiftsSetTheBitShiftedOut := fun s x y =>
  ⟨shrFlag_eq_decide (s.getV x) ▸ writesResultAndFlag_of_exec (exec_shr x y s) (byte_shiftRight_one_eq_ofNat _),
   shlFlag_eq_decide (s.getV x) ▸ writesResultAndFlag_of_exec (exec_shl x y s) (byte_shiftLeft_one_eq_ofNat _)⟩

end Sys2Proof.Machine
end

section
/-! PROOFS. Index register (spec 43_index_memory.md): the handlers that write I and go on. -/

namespace Sys2Proof.Machine

/-- Writing I and going on leaves every part of the state but I and PC as it was (R23, R24). -/
theorem unchangedBut_setI_advance (s : State) (w : Word) : UnchangedBut [.i, .pc] s (s.setI w).advance := by
  intro p hp
  cases p with
  | i => simp at hp
  | pc => simp at hp
  | _ => rfl

/-- A handler that ends in `setI w` and goes on leaves a next state with any property of I that `w` has, and nothing but I
and PC has changed. -/
theorem answers_setI_of_exec {i : Instr} {s : State} {w : Word} {P : Word → Prop}
    (h : exec i s = .next (s.setI w).advance) (hw : P w) :
    Answers i s (fun t => P t.i ∧ t.pc = s.pc + 2 ∧ UnchangedBut [.i, .pc] s t) :=
  ⟨_, h, hw, rfl, unchangedBut_setI_advance s w⟩

/-! ### LOAD-I and LOAD-FONT-ADDR (R170, R172) -/

theorem exec_loadI (nnn : Imm12) (s : State) : exec (.loadI nnn) s = .next (s.setI (immAddr nnn)).advance := rfl

theorem exec_loadFontAddr (x : Nibble) (s : State) :
    exec (.loadFontAddr x) s = .next (s.setI (fontAddr x s)).advance := rfl

/-- Five times a byte fits in 16 bits, so the address of a glyph is exact for every value of Vx (R172). -/
theorem toNat_fontAddr (x : Nibble) (s : State) : (fontAddr x s).toNat = (s.getV x).toNat * 5 := by
  have hv : (s.getV x).toWord.toNat = (s.getV x).toNat := BitVec.toNat_setWidth_of_le (by decide)
  have hfit : (s.getV x).toNat * 5 < 2 ^ 16 := by have := (s.getV x).isLt; omega
  rw [fontAddr, BitVec.toNat_mul, hv]
  exact Nat.mod_eq_of_lt hfit

/-- Settles O17: each handler is one write of I, and neither the immediate nor five times Vx is cut by its 16 bits. -/
theorem indexLoadsWriteIAlone : Obligations.IndexLoadsWriteIAlone := fun s x nnn =>
  ⟨answers_setI_of_exec (P := fun w => w.toNat = nnn.toNat) (exec_loadI nnn s) (toNat_immAddr nnn),
   answers_setI_of_exec (P := fun w => w.toNat = (s.getV x).toNat * 5) (exec_loadFontAddr x s) (toNat_fontAddr x s)⟩

end Sys2Proof.Machine
end

section
/-! PROOFS. Display (spec 44_display.md): the handlers that replace the framebuffer and mark redraw. -/

namespace Sys2Proof.Machine

@[simp] theorem pixel_mem_pixelParts (cx : Fin 64) (cy : Fin 32) : Part.pixel cx cy ∈ pixelParts := by
  simp [pixelParts]

/-- Showing a framebuffer and going on leaves every part of the state but the pixels, REDRAW and PC as it was. -/
theorem unchangedBut_show_advance (s : State) (f : Framebuffer) :
    UnchangedBut (.redraw :: .pc :: pixelParts) s (s.show f).advance := by
  intro p hp
  cases p with
  | pixel cx cy => simp at hp
  | redraw => simp at hp
  | pc => simp at hp
  | _ => rfl

/-! ### CLEAR (R190) -/

theorem exec_clear (z : Nibble) (s : State) : exec (.clear z) s = .next (s.show Framebuffer.blank).advance := rfl

/-- Settles O23: CLEAR shows the blank framebuffer, whatever the framebuffer was, and showing one marks redraw. -/
theorem clearBlanksTheScreen : Obligations.ClearBlanksTheScreen := fun s z =>
  ⟨_, exec_clear z s, Framebuffer.get_blank, s.show_redraw Framebuffer.blank, rfl, unchangedBut_show_advance s _⟩

end Sys2Proof.Machine
end

section
/-! PROOFS. Decoding and encoding (spec 30_encoding.md): the dispatch undone by the encoder and the encoder by the dispatch,
and the rows of the opcode map. -/

namespace Sys2Proof

/-! ### A word put together again from a known family and selector (R71, R72) -/

theorem append_nnnField {w : Word} {o : Nibble} (ho : opField w = o) : o ++ nnnField w = w := by
  rw [← ho, word_eq_nnn]

theorem append_xField_kkField {w : Word} {o : Nibble} (ho : opField w = o) : o ++ xField w ++ kkField w = w := by
  rw [← ho, word_eq_xkk]

theorem append_xField {w : Word} {o : Nibble} {kk : Byte} (ho : opField w = o) (hk : kkField w = kk) :
    o ++ xField w ++ kk = w := by
  rw [← hk, append_xField_kkField ho]

theorem append_xField_yField {w : Word} {o n : Nibble} (ho : opField w = o) (hn : nField w = n) :
    o ++ xField w ++ yField w ++ n = w := by
  rw [← ho, ← hn, word_eq_xyn]

/-! ### The second-level dispatch: every family answers a well-formed instruction whose word is the one given -/

theorem encode_decodeFamily0 {w : Word} (ho : opField w = 0x0) : encode (decodeFamily0 w) = w := by
  unfold decodeFamily0
  split
  case h_3 => exact append_nnnField ho
  all_goals exact append_xField ho ‹_›

theorem wf_decodeFamily0 (w : Word) : (decodeFamily0 w).wf = true := by
  unfold decodeFamily0
  split
  case h_3 => simp_all [Instr.wf, family0Low, setWidth_nnnField_kk]
  all_goals rfl

theorem encode_decodeFamily8 {w : Word} (ho : opField w = 0x8) : encode (decodeFamily8 w) = w := by
  unfold decodeFamily8
  split
  case h_10 => exact append_nnnField ho
  all_goals exact append_xField_yField ho ‹_›

theorem wf_decodeFamily8 (w : Word) : (decodeFamily8 w).wf = true := by
  unfold decodeFamily8
  split
  case h_10 => simp_all [Instr.wf, family8Low, setWidth_nnnField_n]
  all_goals rfl

theorem encode_decodeFamilyE {w : Word} (ho : opField w = 0xE) : encode (decodeFamilyE w) = w := by
  unfold decodeFamilyE
  split
  case h_3 => exact append_nnnField ho
  all_goals exact append_xField ho ‹_›

theorem wf_decodeFamilyE (w : Word) : (decodeFamilyE w).wf = true := by
  unfold decodeFamilyE
  split
  case h_3 => simp_all [Instr.wf, familyELow, setWidth_nnnField_kk]
  all_goals rfl

theorem encode_decodeFamilyF {w : Word} (ho : opField w = 0xF) : encode (decodeFamilyF w) = w := by
  unfold decodeFamilyF
  split
  case h_10 => exact append_nnnField ho
  all_goals exact append_xField ho ‹_›

theorem wf_decodeFamilyF (w : Word) : (decodeFamilyF w).wf = true := by
  unfold decodeFamilyF
  split
  case h_10 => simp_all [Instr.wf, familyFLow, setWidth_nnnField_kk]
  all_goals rfl

/-! ### The first-level dispatch (R75, R82) -/

/-- A nibble has sixteen values: the last arm of the first-level dispatch is family 0xF. -/
theorem nibble_eq_15 : ∀ o : Nibble, o ∉ ([0, 1, 2, 3, 4, 5, 6, 7, 8, 9, 10, 11, 12, 13, 14] : List Nibble) → o = 0xF := by
  decide

theorem encode_decodeWord (w : Word) : encode (decodeWord w) = w := by
  unfold decodeWord
  split
  case h_1 ho => exact encode_decodeFamily0 ho
  case h_2 ho | h_3 ho | h_11 ho | h_12 ho => exact append_nnnField ho
  case h_4 ho | h_5 ho | h_7 ho | h_8 ho | h_13 ho => exact append_xField_kkField ho
  case h_6 ho | h_10 ho | h_14 ho => exact append_xField_yField ho rfl
  case h_9 ho => exact encode_decodeFamily8 ho
  case h_15 ho => exact encode_decodeFamilyE ho
  case h_16 => exact encode_decodeFamilyF (nibble_eq_15 _ (by simp_all))

theorem wf_decodeWord (w : Word) : (decodeWord w).wf = true := by
  unfold decodeWord
  split
  case h_1 => exact wf_decodeFamily0 w
  case h_9 => exact wf_decodeFamily8 w
  case h_15 => exact wf_decodeFamilyE w
  case h_16 => exact wf_decodeFamilyF w
  all_goals rfl

/-! ### The dispatch of an assembled word -/

theorem decodeFamily0_of_notMem {w : Word} (h : kkField w ∉ family0Low) : decodeFamily0 w = .nopLenient0 (nnnField w) := by
  unfold decodeFamily0; split <;> simp_all [family0Low]

theorem decodeFamily8_of_notMem {w : Word} (h : nField w ∉ family8Low) : decodeFamily8 w = .nopLenient8 (nnnField w) := by
  unfold decodeFamily8; split <;> simp_all [family8Low]

theorem decodeFamilyE_of_notMem {w : Word} (h : kkField w ∉ familyELow) : decodeFamilyE w = .nopLenientE (nnnField w) := by
  unfold decodeFamilyE; split <;> simp_all [familyELow]

theorem decodeFamilyF_of_notMem {w : Word} (h : kkField w ∉ familyFLow) : decodeFamilyF w = .nopLenientF (nnnField w) := by
  unfold decodeFamilyF; split <;> simp_all [familyFLow]

theorem decodeWord_encode {i : Instr} (h : i.wf = true) : decodeWord (encode i) = i := by
  cases i with
  | nopLenient0 low =>
    have hl : low.setWidth 8 ∉ family0Low := by simpa [Instr.wf] using h
    simp [encode, decodeWord, decodeFamily0_of_notMem, hl]
  | nopLenient8 low =>
    have hl : low.setWidth 4 ∉ family8Low := by simpa [Instr.wf] using h
    simp [encode, decodeWord, decodeFamily8_of_notMem, hl]
  | nopLenientE low =>
    have hl : low.setWidth 8 ∉ familyELow := by simpa [Instr.wf] using h
    simp [encode, decodeWord, decodeFamilyE_of_notMem, hl]
  | nopLenientF low =>
    have hl : low.setWidth 8 ∉ familyFLow := by simpa [Instr.wf] using h
    simp [encode, decodeWord, decodeFamilyF_of_notMem, hl]
  | clear | ret => simp [encode, decodeWord, decodeFamily0]
  | loadReg | orReg | andReg | xorReg | addReg | subReg | shr | subnReg | shl =>
    simp [encode, decodeWord, decodeFamily8]
  | skipKeyPressed | skipKeyNotPressed => simp [encode, decodeWord, decodeFamilyE]
  | getDelay | waitKey | setDelay | setSound | addToI | loadFontAddr | storeBcd | storeRegs | loadRegs =>
    simp [encode, decodeWord, decodeFamilyF]
  | _ => simp [encode, decodeWord]

theorem decode_encodeBytes_append {i : Instr} (h : i.wf = true) (rest : List Byte) :
    decode (encodeBytes i ++ rest) = .ok (i, rest) := by
  simp [encodeBytes, bytesOfWord, decode, decodeWord_encode h]

/-- Settles O1: the fields of an assembled word are its operands, so the dispatch takes the arm of the constructor; for a
lenient no-op that is the last arm of its family, because well-formedness keeps its selector out of the others. -/
theorem decodeOfEncodeIsTheInstruction : Obligations.DecodeOfEncodeIsTheInstruction := fun _ h =>
  ⟨decodeWord_encode h, decode_encodeBytes_append h⟩

/-- Settles O2: the encoder undoes the dispatch arm by arm, and uniqueness is decoding after encoding. -/
theorem everyWordIsOneInstruction : Obligations.EveryWordIsOneInstruction := fun w =>
  ⟨wf_decodeWord w, encode_decodeWord w, fun _ hi hw => by rw [← hw, decodeWord_encode hi]⟩

/-! ### The rows of the opcode map (R83) -/

/-- The word of every instruction matches the instruction's row. -/
theorem encode_and_mask (i : Instr) : encode i &&& (opcodeRow i).2 = (opcodeRow i).1 := by
  cases i with
  | clear z => exact Laws.OpcodeRow.clear z
  | ret z => exact Laws.OpcodeRow.ret z
  | jump nnn => exact Laws.OpcodeRow.jump nnn
  | call nnn => exact Laws.OpcodeRow.call nnn
  | skipEqImm x kk => exact Laws.OpcodeRow.skipEqImm x kk
  | skipNeImm x kk => exact Laws.OpcodeRow.skipNeImm x kk
  | skipEqReg x y n => exact Laws.OpcodeRow.skipEqReg x y n
  | skipNeReg x y n => exact Laws.OpcodeRow.skipNeReg x y n
  | loadImm x kk => exact Laws.OpcodeRow.loadImm x kk
  | addImm x kk => exact Laws.OpcodeRow.addImm x kk
  | loadReg x y => exact Laws.OpcodeRow.loadReg x y
  | orReg x y => exact Laws.OpcodeRow.orReg x y
  | andReg x y => exact Laws.OpcodeRow.andReg x y
  | xorReg x y => exact Laws.OpcodeRow.xorReg x y
  | addReg x y => exact Laws.OpcodeRow.addReg x y
  | subReg x y => exact Laws.OpcodeRow.subReg x y
  | shr x y => exact Laws.OpcodeRow.shr x y
  | subnReg x y => exact Laws.OpcodeRow.subnReg x y
  | shl x y => exact Laws.OpcodeRow.shl x y
  | loadI nnn => exact Laws.OpcodeRow.loadI nnn
  | jumpOffset nnn => exact Laws.OpcodeRow.jumpOffset nnn
  | random x kk => exact Laws.OpcodeRow.random x kk
  | draw x y n => exact Laws.OpcodeRow.draw x y n
  | skipKeyPressed x => exact Laws.OpcodeRow.skipKeyPressed x
  | skipKeyNotPressed x => exact Laws.OpcodeRow.skipKeyNotPressed x
  | getDelay x => exact Laws.OpcodeRow.getDelay x
  | setDelay x => exact Laws.OpcodeRow.setDelay x
  | setSound x => exact Laws.OpcodeRow.setSound x
  | addToI x => exact Laws.OpcodeRow.addToI x
  | loadFontAddr x => exact Laws.OpcodeRow.loadFontAddr x
  | storeBcd x => exact Laws.OpcodeRow.storeBcd x
  | storeRegs x => exact Laws.OpcodeRow.storeRegs x
  | loadRegs x => exact Laws.OpcodeRow.loadRegs x
  | waitKey x => exact Laws.OpcodeRow.waitKey x
  | nopLenient0 low => exact Laws.OpcodeRow.nopLenient0 low
  | nopLenient8 low => exact Laws.OpcodeRow.nopLenient8 low
  | nopLenientE low => exact Laws.OpcodeRow.nopLenientE low
  | nopLenientF low => exact Laws.OpcodeRow.nopLenientF low

/-- The row of an instruction that is no lenient no-op is one of the 34. -/
theorem opcodeRow_mem_instructionRows {i : Instr} (h : i.isLenient = false) : opcodeRow i ∈ instructionRows := by
  cases i with
  | nopLenient0 | nopLenient8 | nopLenientE | nopLenientF => cases h
  | _ => simp [opcodeRow, instructionRows]

/-- The mask of a row of the 34 keeps the family, and in a sub-dispatched family the selector too, which is one that the
family lists. -/
theorem instructionRows_selectors : ∀ row ∈ instructionRows, opField row.2 = 0xF ∧
    (opField row.1 = 0x0 → kkField row.2 = 0xFF ∧ kkField row.1 ∈ family0Low) ∧
    (opField row.1 = 0x8 → nField row.2 = 0xF ∧ nField row.1 ∈ family8Low) ∧
    (opField row.1 = 0xE → kkField row.2 = 0xFF ∧ kkField row.1 ∈ familyELow) ∧
    (opField row.1 = 0xF → kkField row.2 = 0xFF ∧ kkField row.1 ∈ familyFLow) := by
  simp [instructionRows, opField, kkField, nField, family0Low, family8Low, familyELow, familyFLow]

theorem opField_and (a b : Word) : opField (a &&& b) = opField a &&& opField b := BitVec.extractLsb'_and
theorem kkField_and (a b : Word) : kkField (a &&& b) = kkField a &&& kkField b := BitVec.extractLsb'_and
theorem nField_and (a b : Word) : nField (a &&& b) = nField a &&& nField b := BitVec.extractLsb'_and

/-- A mask that is all ones on a field keeps the field. -/
theorem byte_and_allOnes (b : Byte) : b &&& 0xFF = b := BitVec.and_allOnes
theorem nibble_and_allOnes (n : Nibble) : n &&& 0xF = n := BitVec.and_allOnes

/-- No row of the 34 matches the word of a well-formed lenient no-op: it would have to name the word's own selector. -/
theorem instructionRows_ne_of_isLenient {i : Instr} (hw : i.wf = true) (hi : i.isLenient = true) :
    ∀ row ∈ instructionRows, encode i &&& row.2 ≠ row.1 := by
  intro row hrow he
  obtain ⟨hop, h0, h8, hE, hF⟩ := instructionRows_selectors row hrow
  have hfam : opField (encode i) = opField row.1 := by rw [← he, opField_and, hop, nibble_and_allOnes]
  have hkk : kkField row.2 = 0xFF → kkField (encode i) = kkField row.1 := fun h => by
    rw [← he, kkField_and, h, byte_and_allOnes]
  have hn : nField row.2 = 0xF → nField (encode i) = nField row.1 := fun h => by
    rw [← he, nField_and, h, nibble_and_allOnes]
  cases i with
  | nopLenient0 low =>
    obtain ⟨hm, hs⟩ := h0 (hfam.symm.trans (opField_nnn _ _))
    rw [← hkk hm] at hs
    simp_all [Instr.wf, encode]
  | nopLenient8 low =>
    obtain ⟨hm, hs⟩ := h8 (hfam.symm.trans (opField_nnn _ _))
    rw [← hn hm] at hs
    simp_all [Instr.wf, encode]
  | nopLenientE low =>
    obtain ⟨hm, hs⟩ := hE (hfam.symm.trans (opField_nnn _ _))
    rw [← hkk hm] at hs
    simp_all [Instr.wf, encode]
  | nopLenientF low =>
    obtain ⟨hm, hs⟩ := hF (hfam.symm.trans (opField_nnn _ _))
    rw [← hkk hm] at hs
    simp_all [Instr.wf, encode]
  | _ => cases hi

/-- Settles O3: every word is the word of the instruction it decodes to, so it matches that instruction's row; the row is one
of the 34 unless the instruction is lenient, and then none of the 34 matches. -/
theorem decodedInstructionMatchesItsOpcodeRow : Obligations.DecodedInstructionMatchesItsOpcodeRow := by
  intro w
  have hrow := encode_and_mask (decodeWord w)
  have hlen := instructionRows_ne_of_isLenient (wf_decodeWord w)
  rw [encode_decodeWord] at hrow hlen
  refine ⟨hrow, hlen, fun hno => ?_⟩
  by_contra hi
  exact hno _ (opcodeRow_mem_instructionRows (by simpa using hi)) hrow

/-- Settles O4: the sixteen words run through the decoder. -/
theorem wordsOfEveryFormatDecode : Obligations.WordsOfEveryFormatDecode := by
  unfold Obligations.WordsOfEveryFormatDecode
  decide

end Sys2Proof
end

section
/-! PROOFS. Frames: what each named operation over the state leaves as it was, said once per operation; the frame of a
handler is then the frames of its operations one after the other. -/

namespace Sys2Proof.Machine

theorem Part.same_refl (s : State) (p : Part) : p.same s s := by cases p <;> rfl

theorem Part.same_trans {s t u : State} {p : Part} (h : p.same s t) (k : p.same t u) : p.same s u := by
  cases p <;> exact Eq.trans k h

theorem UnchangedBut.refl (ps : List Part) (s : State) : UnchangedBut ps s s := fun p _ => p.same_refl s

theorem UnchangedBut.trans {ps qs : List Part} {s t u : State} (h : UnchangedBut ps s t) (k : UnchangedBut qs t u) :
    UnchangedBut (ps ++ qs) s u := fun p hp =>
  Part.same_trans (h p fun hm => hp (List.mem_append_left qs hm)) (k p fun hm => hp (List.mem_append_right ps hm))

theorem UnchangedBut.mono {ps qs : List Part} {s t : State} (h : UnchangedBut ps s t) (hs : ps ⊆ qs) :
    UnchangedBut qs s t := fun p hp => h p fun hm => hp (hs hm)

theorem mem_memParts {a b n : Nat} : Part.mem a ∈ memParts b n ↔ b ≤ a ∧ a < b + n := by
  simp only [memParts, List.mem_map, List.mem_range, Part.mem.injEq]
  exact ⟨fun ⟨j, hj, he⟩ => by omega, fun h => ⟨a - b, by omega, by omega⟩⟩

theorem mem_regParts {r x : Nibble} : Part.v r ∈ regParts x ↔ r.toNat ≤ x.toNat := by
  simp only [regParts, List.mem_map, List.mem_range, Part.v.injEq]
  constructor
  · rintro ⟨j, hj, rfl⟩
    have := Nat.mod_le j (2 ^ 4)
    rw [BitVec.toNat_ofNat]; omega
  · exact fun h => ⟨r.toNat, by omega, BitVec.eq_of_toNat_eq (by simp)⟩

/-! ### One frame per operation -/

theorem unchangedBut_advance (s : State) : UnchangedBut [.pc] s s.advance := unchangedBut_goto s _

theorem unchangedBut_setV (s : State) (x : Nibble) (b : Byte) : UnchangedBut [.v x] s (s.setV x b) := by
  intro p hp
  cases p with
  | v q => exact s.getV_setV_ne b fun h => hp (by simp [h])
  | _ => rfl

theorem unchangedBut_setDt (s : State) (b : Byte) : UnchangedBut [.dt] s (s.setDt b) := by
  intro p hp
  cases p with
  | dt => simp at hp
  | _ => rfl

theorem unchangedBut_setSt (s : State) (b : Byte) : UnchangedBut [.st] s (s.setSt b) := by
  intro p hp
  cases p with
  | st => simp at hp
  | _ => rfl

theorem unchangedBut_push (s : State) (w : Word) (h : s.sp.val < 16) :
    UnchangedBut [.stack ⟨s.sp.val, h⟩, .sp] s (s.push w h) := by
  intro p hp
  cases p with
  | stack j =>
    have hj : j.val ≠ s.sp.val := fun e => hp (by simp [Fin.ext_iff, e])
    exact (s.getElem_push_stack w h j.val j.isLt).trans (if_neg hj)
  | sp => simp at hp
  | _ => rfl

theorem unchangedBut_drop (s : State) : UnchangedBut [.sp] s s.drop := by
  intro p hp
  cases p with
  | sp => simp at hp
  | _ => rfl

theorem unchangedBut_show (s : State) (f : Framebuffer) : UnchangedBut (.redraw :: pixelParts) s (s.show f) := by
  intro p hp
  cases p with
  | pixel cx cy => simp at hp
  | redraw => simp at hp
  | _ => rfl

theorem unchangedBut_afterRand (s : State) : UnchangedBut [.rand, .drawn] s s.afterRand := by
  intro p hp
  cases p with
  | rand => simp at hp
  | drawn => simp at hp
  | _ => rfl

theorem unchangedBut_afterKeyChoice (s : State) : UnchangedBut [.keyChoice, .drawn] s s.afterKeyChoice := by
  intro p hp
  cases p with
  | keyChoice => simp at hp
  | drawn => simp at hp
  | _ => rfl

theorem unchangedBut_captureKey (s : State) (x : Nibble) : UnchangedBut [.v x, .keyChoice, .drawn] s (s.captureKey x) :=
  (unchangedBut_setV s x _).trans (unchangedBut_afterKeyChoice _)

theorem unchangedBut_setMode (s : State) (m : Mode) : UnchangedBut [.mode] s (s.setMode m) := by
  intro p hp
  cases p with
  | mode => simp at hp
  | _ => rfl

theorem unchangedBut_countLenient (s : State) : UnchangedBut [.lenientCount] s s.countLenient := by
  intro p hp
  cases p with
  | lenientCount => simp at hp
  | _ => rfl

/-- A store of consecutive bytes leaves every other byte and every other part as it was (R57). -/
theorem unchangedBut_writeBytes (s : State) (a : Nat) (bs : List Byte) :
    UnchangedBut (memParts a bs.length) s (s.writeBytes a bs) := by
  intro p hp
  cases p with
  | mem k => exact (s.readByte_writeBytes a k bs).trans (dif_neg fun h => hp (mem_memParts.2 h))
  | _ => rfl

/-- A register file that keeps every register above Vx leaves these and every other part as they were. -/
theorem unchangedBut_setRegs {s : State} {x : Nibble} {w : Vector Byte 16}
    (hw : ∀ r : Nibble, ¬ r.toNat ≤ x.toNat → (s.setRegs w).getV r = s.getV r) :
    UnchangedBut (regParts x) s (s.setRegs w) := by
  intro p hp
  cases p with
  | v r => exact hw r fun h => hp (mem_regParts.2 h)
  | _ => rfl

theorem unchangedBut_decayTimers (s : State) : UnchangedBut [.dt, .st] s s.decayTimers.1 := by
  intro p hp
  cases p with
  | dt => simp at hp
  | st => simp at hp
  | _ => rfl

/-- Entering a fatal error changes the fault record and MODE alone (R232). -/
theorem unchangedBut_enterFatal (s : State) (c : FatalCause) (pc w : Word) :
    UnchangedBut fatalParts s (s.enterFatal c pc w) := by
  intro p hp
  cases p with
  | mode => simp [fatalParts] at hp
  | faultCause => simp [fatalParts] at hp
  | faultPc => simp [fatalParts] at hp
  | faultInstr => simp [fatalParts] at hp
  | _ => rfl

/-- A handler that raises `c` records it, and changes nothing else. -/
theorem raisesFatal_of_exec {i : Instr} {s : State} {c : FatalCause} (h : exec i s = raise c i s) : RaisesFatal i s c :=
  ⟨_, h, rfl, rfl, rfl, rfl, unchangedBut_enterFatal s c s.pc (encode i)⟩

end Sys2Proof.Machine
end

section
/-! PROOFS. Bitwise instructions, RANDOM, ADD-TO-I and the register skips (spec 41_control_flow.md, 42_register_alu.md,
43_index_memory.md): handlers that complete from every state. -/

namespace Sys2Proof.Machine

theorem exec_orReg (x y : Nibble) (s : State) :
    exec (.orReg x y) s = .next (s.setV x (s.getV x ||| s.getV y)).advance := rfl

theorem exec_andReg (x y : Nibble) (s : State) :
    exec (.andReg x y) s = .next (s.setV x (s.getV x &&& s.getV y)).advance := rfl

theorem exec_xorReg (x y : Nibble) (s : State) :
    exec (.xorReg x y) s = .next (s.setV x (s.getV x ^^^ s.getV y)).advance := rfl

/-- Settles O6: each handler is one write of Vx. -/
theorem bitwiseInstructionsWriteVxAlone : Obligations.BitwiseInstructionsWriteVxAlone := fun s x y =>
  ⟨writesReg_of_exec (exec_orReg x y s), writesReg_of_exec (exec_andReg x y s), writesReg_of_exec (exec_xorReg x y s)⟩

theorem exec_random (x : Nibble) (kk : Byte) (s : State) :
    exec (.random x kk) s = .next (s.setV x (s.rand &&& kk)).afterRand.advance := rfl

theorem unchangedBut_random (s : State) (x : Nibble) (b : Byte) :
    UnchangedBut [.v x, .pc, .rand, .drawn] s (s.setV x b).afterRand.advance :=
  (((unchangedBut_setV s x b).trans (unchangedBut_afterRand _)).trans (unchangedBut_advance _)).mono (by simp)

/-- Settles O10: the sampled byte is masked and written before the next one is drawn. -/
theorem randomWritesTheMaskedDraw : Obligations.RandomWritesTheMaskedDraw := fun s x kk =>
  ⟨_, exec_random x kk s, s.getV_setV_self x _, rfl, unchangedBut_random s x _⟩

theorem exec_skipEqReg (x y n : Nibble) (s : State) :
    exec (.skipEqReg x y n) s = .next (s.skipIf (s.getV x = s.getV y)) := rfl

theorem exec_skipNeReg (x y n : Nibble) (s : State) :
    exec (.skipNeReg x y n) s = .next (s.skipIf (s.getV x ≠ s.getV y)) := rfl

/-- Settles O16: both handlers end in a skip on their own comparison, which does not read bits 3..0. -/
theorem registerSkipsMoveThePcAlone : Obligations.RegisterSkipsMoveThePcAlone := fun s x y n =>
  ⟨skipsWhen_of_exec (exec_skipEqReg x y n s), skipsWhen_of_exec (exec_skipNeReg x y n s)⟩

theorem exec_addToI (x : Nibble) (s : State) : exec (.addToI x) s = .next (s.setI (s.i + (s.getV x).toWord)).advance := rfl

/-- A sum of I and a byte is the exact sum on 16 bits (R171). -/
theorem word_add_toWord_eq_ofNat (w : Word) (b : Byte) : w + b.toWord = BitVec.ofNat 16 (w.toNat + b.toNat) := by
  have hb : b.toWord.toNat = b.toNat := BitVec.toNat_setWidth_of_le (by decide)
  rw [BitVec.add_def, hb]

/-- Settles O18: the handler is one write of I. -/
theorem addToIWritesIAlone : Obligations.AddToIWritesIAlone := fun s x =>
  answers_setI_of_exec (P := fun w => w = BitVec.ofNat 16 (s.i.toNat + (s.getV x).toNat)) (exec_addToI x s)
    (word_add_toWord_eq_ofNat _ _)

end Sys2Proof.Machine
end

section
/-! PROOFS. CALL and RETURN (spec 41_control_flow.md R120, R122, R130). -/

namespace Sys2Proof.Machine

theorem unchangedBut_call (s : State) (w a : Word) (h : s.sp.val < 16) :
    UnchangedBut [.stack ⟨s.sp.val, h⟩, .sp, .pc] s ((s.push w h).goto a) :=
  (unchangedBut_push s w h).trans (unchangedBut_goto _ a)

theorem unchangedBut_ret (s : State) (a : Word) : UnchangedBut [.sp, .pc] s (s.drop.goto a) :=
  (unchangedBut_drop s).trans (unchangedBut_goto _ a)

/-- Settles O12: below depth 16 the handler pushes PC and goes to nnn, at depth 16 it raises the fatal error. -/
theorem callPushesTheCallSite : Obligations.CallPushesTheCallSite := fun s nnn =>
  ⟨fun h => ⟨_, execCall_pos nnn s h, by simp, rfl, toNat_immAddr nnn,
      unchangedBut_call s _ _ h⟩,
   fun h => raisesFatal_of_exec (execCall_neg nnn s (by omega))⟩

/-- Settles O13: on a stack that is not empty the handler drops the top entry and goes 2 beyond it, on an empty one it raises
the fatal error. -/
theorem returnPopsTheCallSitePlusTwo : Obligations.ReturnPopsTheCallSitePlusTwo := fun s z =>
  ⟨fun j hj => ⟨_, execRet_pos z s (by omega), by simp [hj], by simp [State.top, hj], unchangedBut_ret s _⟩,
   fun h => raisesFatal_of_exec (execRet_neg z s (by omega))⟩

/-- The top entry after a push is the word pushed. -/
theorem State.top_push_goto (s : State) (w a : Word) (h : s.sp.val < 16) (hp : 0 < ((s.push w h).goto a).sp.val) :
    ((s.push w h).goto a).top hp = w := by
  simp [State.top]

/-- Settles O14: RETURN pops what CALL pushed, and the entry written stays above the depth. -/
theorem callThenReturnResumesAfterTheCall : Obligations.CallThenReturnResumesAfterTheCall := by
  intro s nnn z h
  have hp : 0 < ((s.push s.pc h).goto (immAddr nnn)).sp.val := Nat.succ_pos _
  refine ⟨_, _, execCall_pos nnn s h, execRet_pos z _ hp, by simp [State.top_push_goto], by simp, fun p hmem => ?_⟩
  have hframe := (unchangedBut_call s s.pc (immAddr nnn) h).trans
    (unchangedBut_ret _ (((s.push s.pc h).goto (immAddr nnn)).top hp + 2))
  by_cases hsp : p = .sp
  · subst hsp; simp [Part.same]
  · exact hframe p (by simp_all)

end Sys2Proof.Machine
end

section
/-! PROOFS. Transfers through I (spec 43_index_memory.md R173 to R177): the range is checked first, so a handler either
completes or raises the fatal error with nothing written. -/

namespace Sys2Proof.Machine

theorem unchangedBut_store (s : State) (a : Nat) (bs : List Byte) :
    UnchangedBut (.pc :: memParts a bs.length) s (s.writeBytes a bs).advance :=
  ((unchangedBut_writeBytes s a bs).trans (unchangedBut_advance _)).mono (by simp)

/-- After a store and the advance, the j-th byte stored reads at its address. -/
theorem readByte_store (s : State) (a : Nat) (bs : List Byte) (j : Nat) (hj : j < bs.length) :
    (s.writeBytes a bs).advance.readByte (a + j) = bs[j] := by
  rw [State.advance_readByte, State.readByte_writeBytes, dif_pos (by omega)]
  simp

/-! ### STORE-BCD -/

theorem byte_hundreds_eq_ofNat (b : Byte) : b / 100 = BitVec.ofNat 8 (b.toNat / 100) := by
  apply BitVec.eq_of_toNat_eq; simp; omega

theorem byte_tens_eq_ofNat (b : Byte) : (b / 10) % 10 = BitVec.ofNat 8 (b.toNat / 10 % 10) := by
  apply BitVec.eq_of_toNat_eq; simp; omega

theorem byte_units_eq_ofNat (b : Byte) : b % 10 = BitVec.ofNat 8 (b.toNat % 10) := by
  apply BitVec.eq_of_toNat_eq; simp; omega

theorem inMemory_bcd_iff (s : State) : inMemory (indexAddr s) 3 = true ↔ s.i.toNat + 2 ≤ 0xFFF := by
  rw [inMemory_iff, indexAddr]; omega

/-- Settles O19: the three bytes stored are the digits on 8 bits. -/
theorem storeBcdWritesThreeDigits : Obligations.StoreBcdWritesThreeDigits := by
  intro s x
  refine ⟨fun h => ?_, fun h => raisesFatal_of_exec (execStoreBcd_neg x s (by rw [inMemory_bcd_iff]; omega))⟩
  have hread := readByte_store s s.i.toNat (bcdBytes (s.getV x))
  refine ⟨_, execStoreBcd_pos x s ((inMemory_bcd_iff s).2 h), ?_, ?_, ?_, rfl, unchangedBut_store s _ (bcdBytes (s.getV x))⟩
  · exact (hread 0 (by simp)).trans (byte_hundreds_eq_ofNat _)
  · exact (hread 1 (by simp)).trans (byte_tens_eq_ofNat _)
  · exact (hread 2 (by simp)).trans (byte_units_eq_ofNat _)

/-! ### STORE-REGS and LOAD-REGS -/

/-- The range of x + 1 bytes at I lies in memory exactly where its last address does (R53). -/
theorem inMemory_regCount_iff (x : Nibble) (s : State) :
    inMemory (indexAddr s) (regCount x) = true ↔ s.i.toNat + x.toNat ≤ 0xFFF := by
  rw [inMemory_iff, indexAddr, regCount]; omega

theorem exec_storeRegs {x : Nibble} {s : State} (h : s.i.toNat + x.toNat ≤ 0xFFF) :
    exec (.storeRegs x) s = .next (s.writeBytes s.i.toNat (regBytes x s)).advance :=
  execStoreRegs_pos x s ((inMemory_regCount_iff x s).2 h)

theorem exec_loadRegs {x : Nibble} {s : State} (h : s.i.toNat + x.toNat ≤ 0xFFF) :
    exec (.loadRegs x) s = .next (s.setRegs (loadedRegs x s)).advance :=
  execLoadRegs_pos x s ((inMemory_regCount_iff x s).2 h)

theorem readByte_storeRegs (s : State) {x j : Nibble} (h : j.toNat ≤ x.toNat) :
    (s.writeBytes s.i.toNat (regBytes x s)).advance.readByte (s.i.toNat + j.toNat) = s.getV j := by
  rw [readByte_store s _ _ j.toNat (by simp; omega), getElem_regBytes]
  simp

theorem unchangedBut_storeRegs (s : State) (x : Nibble) :
    UnchangedBut (.pc :: memParts s.i.toNat (x.toNat + 1)) s (s.writeBytes s.i.toNat (regBytes x s)).advance :=
  length_regBytes x s ▸ unchangedBut_store s s.i.toNat (regBytes x s)

/-- Settles O20: the bytes stored are V0 to Vx in order. -/
theorem storeRegsCopiesRegistersToMemory : Obligations.StoreRegsCopiesRegistersToMemory := fun s x =>
  ⟨fun h => ⟨_, exec_storeRegs h, fun _ hj => readByte_storeRegs s hj, rfl, unchangedBut_storeRegs s x⟩,
   fun h => raisesFatal_of_exec (execStoreRegs_neg x s (by rw [inMemory_regCount_iff]; omega))⟩

theorem getV_loadRegs (s : State) (x r : Nibble) :
    (s.setRegs (loadedRegs x s)).advance.getV r =
      if r.toNat ≤ x.toNat then s.readByte (s.i.toNat + r.toNat) else s.getV r :=
  getElem_loadedRegs x s r.toNat r.isLt

theorem unchangedBut_loadRegs (s : State) (x : Nibble) :
    UnchangedBut (.pc :: regParts x) s (s.setRegs (loadedRegs x s)).advance :=
  ((unchangedBut_setRegs fun r hr => (getV_loadRegs s x r).trans (if_neg hr)).trans
    (unchangedBut_advance _)).mono (by simp)

/-- Settles O21: the registers taken are the bytes at I, and those above Vx are kept. -/
theorem loadRegsCopiesMemoryToRegisters : Obligations.LoadRegsCopiesMemoryToRegisters := fun s x =>
  ⟨fun h => ⟨_, exec_loadRegs h, fun j hj => (getV_loadRegs s x j).trans (if_pos hj), rfl, unchangedBut_loadRegs s x⟩,
   fun h => raisesFatal_of_exec (execLoadRegs_neg x s (by rw [inMemory_regCount_iff]; omega))⟩

/-- Settles O22: up to Vx the bytes loaded are the ones stored, which nothing has changed between, and above Vx neither the
store nor the change between nor the load writes a register. -/
theorem storeRegsThenLoadRegsRestores : Obligations.StoreRegsThenLoadRegsRestores := by
  intro s t u x h hst hchange
  rw [exec_storeRegs h] at hst
  cases hst
  have hi : u.i = s.i := hchange .i (by simp [regParts])
  refine ⟨_, exec_loadRegs (by rwa [hi]), fun r => ?_, hi⟩
  rw [getV_loadRegs, hi]
  split
  · next hr => exact (hchange (.mem _) (by simp [regParts])).trans (readByte_storeRegs s hr)
  · next hr => exact hchange (.v r) (by simpa [mem_regParts] using hr)

end Sys2Proof.Machine
end

section
/-! PROOFS. DRAW (spec 44_display.md R191, R192). -/

namespace Sys2Proof.Machine

theorem spriteOn_iff_blitOn (s : State) (x y n : Nibble) (cx : Fin 64) (cy : Fin 32) :
    SpriteOn s x y n cx cy ↔ BlitOn (s.getV x).toNat (s.getV y).toNat (spriteBytes n s) cx cy := by
  constructor
  · rintro ⟨row, col, hrow, hcol, hx, hy, hbit⟩
    have hlen : row < (spriteBytes n s).length := by simpa using hrow
    refine ⟨row, hlen, col, hcol, ?_, Fin.ext hx, Fin.ext hy⟩
    rw [spriteBit, getElem_spriteBytes n s row hlen]
    exact hbit
  · rintro ⟨row, hlen, col, hcol, hbit, hx, hy⟩
    rw [spriteBit, getElem_spriteBytes n s row hlen] at hbit
    exact ⟨row, col, by simpa using hlen, hcol, congrArg Fin.val hx, congrArg Fin.val hy, hbit⟩

/-- What the blit of a DRAW leaves in each pixel, and when it collides. -/
theorem drawBlit_spec (x y n : Nibble) (s : State) :
    (∀ cx cy, (SpriteOn s x y n cx cy → (drawBlit x y n s).1.get cx cy = !s.pixel cx cy) ∧
      (¬ SpriteOn s x y n cx cy → (drawBlit x y n s).1.get cx cy = s.pixel cx cy)) ∧
    ((drawBlit x y n s).2 = true ↔ ∃ cx cy, SpriteOn s x y n cx cy ∧ s.pixel cx cy = true) := by
  have hlen : (spriteBytes n s).length < 32 := by have := n.isLt; rw [length_spriteBytes]; omega
  simpa [spriteOn_iff_blitOn, drawBlit, State.pixel] using
    blit_spec (s.getV x).toNat (spriteBytes n s) hlen (s.getV y).toNat (s.fb, false)

/-- The state a completed DRAW answers. -/
def afterDraw (x y n : Nibble) (s : State) : State :=
  ((s.show (drawBlit x y n s).1).setV flagReg (flagByte (drawBlit x y n s).2)).advance

theorem inMemory_sprite_iff (n : Nibble) (s : State) :
    inMemory (indexAddr s) n.toNat = true ↔ n = 0 ∨ s.i.toNat + n.toNat - 1 ≤ 0xFFF := by
  have hn : n = 0 ↔ n.toNat = 0 := by rw [← BitVec.toNat_inj]; rfl
  rw [inMemory_iff, hn, indexAddr]; omega

theorem exec_draw {x y n : Nibble} {s : State} (h : n = 0 ∨ s.i.toNat + n.toNat - 1 ≤ 0xFFF) :
    exec (.draw x y n) s = .next (afterDraw x y n s) :=
  execDraw_pos x y n s ((inMemory_sprite_iff n s).2 h)

theorem exec_draw_fatal {x y n : Nibble} {s : State} (hn : 0 < n.toNat) (h : s.i.toNat + n.toNat - 1 > 0xFFF) :
    exec (.draw x y n) s = raise .memOutOfBounds (.draw x y n) s := by
  refine execDraw_neg x y n s fun hm => ?_
  rcases (inMemory_sprite_iff n s).1 hm with rfl | hle
  · exact absurd hn (by simp)
  · omega

theorem pixel_afterDraw (x y n : Nibble) (s : State) (cx : Fin 64) (cy : Fin 32) :
    (afterDraw x y n s).pixel cx cy = (drawBlit x y n s).1.get cx cy := rfl

theorem i_afterDraw (x y n : Nibble) (s : State) : (afterDraw x y n s).i = s.i := rfl

theorem getV_afterDraw_flagReg (x y n : Nibble) (s : State) :
    (afterDraw x y n s).getV 0xF = flagByte (drawBlit x y n s).2 := State.getV_setV_self _ _ _

theorem unchangedBut_afterDraw (x y n : Nibble) (s : State) :
    UnchangedBut (.v 0xF :: .redraw :: .pc :: pixelParts) s (afterDraw x y n s) :=
  (((unchangedBut_show s _).trans (unchangedBut_setV _ flagReg _)).trans (unchangedBut_advance _)).mono
    (by intro p hp; simp at hp ⊢; tauto)

/-- Settles O24: the blit inverts exactly the sprite's pixels and collides exactly where one of them was on; the range check
is the statement's condition. -/
theorem drawInvertsExactlyTheSpritePixels : Obligations.DrawInvertsExactlyTheSpritePixels := by
  intro s x y n
  obtain ⟨hpix, hcol⟩ := drawBlit_spec x y n s
  refine ⟨fun h => ⟨_, exec_draw h, hpix, fun hon => ?_, fun hoff => ?_, rfl, rfl, unchangedBut_afterDraw x y n s⟩,
    fun hn h => raisesFatal_of_exec (exec_draw_fatal hn h)⟩
  · rw [getV_afterDraw_flagReg, hcol.2 hon]; rfl
  · rw [getV_afterDraw_flagReg, Bool.eq_false_iff.2 fun h => hoff (hcol.1 h)]; rfl

/-- A sprite whose coordinates are not in VF lies on the same pixels after it has been drawn: neither its coordinates nor its
bytes have changed. -/
theorem spriteOn_afterDraw {x y : Nibble} (hx : x ≠ 0xF) (hy : y ≠ 0xF) (n : Nibble) (s : State) (cx : Fin 64) (cy : Fin 32) :
    SpriteOn (afterDraw x y n s) x y n cx cy ↔ SpriteOn s x y n cx cy := by
  have hframe := unchangedBut_afterDraw x y n s
  have hvx : (afterDraw x y n s).getV x = s.getV x := hframe (.v x) (by simpa [pixelParts] using hx)
  have hvy : (afterDraw x y n s).getV y = s.getV y := hframe (.v y) (by simpa [pixelParts] using hy)
  have hm : ∀ a, (afterDraw x y n s).readByte a = s.readByte a := fun a => hframe (.mem a) (by simp [pixelParts])
  simp only [SpriteOn, hvx, hvy, i_afterDraw, hm]

/-- Settles O25: the second draw inverts the same pixels again, and it collides on each one that the first lit. -/
theorem drawingTwiceRestoresTheScreen : Obligations.DrawingTwiceRestoresTheScreen := by
  intro s x y n hx hy h
  have hfirst := (drawBlit_spec x y n s).1
  obtain ⟨hsecond, hcol⟩ := drawBlit_spec x y n (afterDraw x y n s)
  simp only [spriteOn_afterDraw hx hy, pixel_afterDraw] at hsecond hcol
  refine ⟨_, _, exec_draw (.inr (by omega)), exec_draw (.inr (by rw [i_afterDraw]; omega)), fun cx cy => ?_,
    fun ⟨cx, cy, hon, hoff⟩ => ?_⟩
  · rw [pixel_afterDraw]
    by_cases hon : SpriteOn s x y n cx cy
    · rw [(hsecond cx cy).1 hon, (hfirst cx cy).1 hon, Bool.not_not]
    · rw [(hsecond cx cy).2 hon, (hfirst cx cy).2 hon]
  · rw [getV_afterDraw_flagReg, hcol.2 ⟨cx, cy, hon, by rw [(hfirst cx cy).1 hon, hoff]; rfl⟩]
    rfl

end Sys2Proof.Machine
end

section
/-! PROOFS. Keys, timers and the lenient no-op (spec 45_keys_timers.md, 30_encoding.md R80). -/

namespace Sys2Proof.Machine

/-! ### The key skips (R210, R211) -/

theorem keyIndex_of_getV {x k : Nibble} {s : State} (h : s.getV x = k.setWidth 8) : keyIndex x s = some k := by
  have hk : (s.getV x).toNat = k.toNat := by rw [h]; exact BitVec.toNat_setWidth_of_le (by decide)
  rw [keyIndex_pos x s (by have := k.isLt; omega), h]
  simp

theorem exec_skipKeyPressed_some {x k : Nibble} {s : State} (h : keyIndex x s = some k) :
    exec (.skipKeyPressed x) s = .next (s.skipIf (s.key k)) := by
  simp [exec, execSkipKeyPressed, h]

theorem exec_skipKeyPressed_none {x : Nibble} {s : State} (h : keyIndex x s = none) :
    exec (.skipKeyPressed x) s = raise .keyIndexOutOfRange (.skipKeyPressed x) s := by
  simp [exec, execSkipKeyPressed, h]

theorem exec_skipKeyNotPressed_some {x k : Nibble} {s : State} (h : keyIndex x s = some k) :
    exec (.skipKeyNotPressed x) s = .next (s.skipIf (!s.key k)) := by
  simp [exec, execSkipKeyNotPressed, h]

theorem exec_skipKeyNotPressed_none {x : Nibble} {s : State} (h : keyIndex x s = none) :
    exec (.skipKeyNotPressed x) s = raise .keyIndexOutOfRange (.skipKeyNotPressed x) s := by
  simp [exec, execSkipKeyNotPressed, h]

/-- Settles O26: where Vx names a key both handlers end in a skip on that key, and where it names none both raise. -/
theorem keySkipsTestTheNamedKey : Obligations.KeySkipsTestTheNamedKey := by
  intro s x k
  refine ⟨fun h => ?_, fun h => ?_⟩
  · have hk := keyIndex_of_getV h
    exact ⟨skipsWhen_of_exec (exec_skipKeyPressed_some hk), skipsWhen_of_exec (exec_skipKeyNotPressed_some hk)⟩
  · have hk := keyIndex_neg x s (by omega)
    exact ⟨raisesFatal_of_exec (exec_skipKeyPressed_none hk), raisesFatal_of_exec (exec_skipKeyNotPressed_none hk)⟩

/-! ### The timer instructions (R212 to R214) -/

theorem exec_getDelay (x : Nibble) (s : State) : exec (.getDelay x) s = .next (s.setV x s.dt).advance := rfl
theorem exec_setDelay (x : Nibble) (s : State) : exec (.setDelay x) s = .next (s.setDt (s.getV x)).advance := rfl
theorem exec_setSound (x : Nibble) (s : State) : exec (.setSound x) s = .next (s.setSt (s.getV x)).advance := rfl

/-- Settles O27: each handler is one write. -/
theorem timerInstructionsMoveOneTimer : Obligations.TimerInstructionsMoveOneTimer := fun s x =>
  ⟨writesReg_of_exec (exec_getDelay x s),
   ⟨_, exec_setDelay x s, rfl, rfl, (unchangedBut_setDt s _).trans (unchangedBut_advance _)⟩,
   ⟨_, exec_setSound x s, rfl, rfl, (unchangedBut_setSt s _).trans (unchangedBut_advance _)⟩⟩

/-! ### WAIT-KEY (R215) -/

theorem exec_waitKey_suspends {s : State} (h : s.keys = 0) (x : Nibble) :
    exec (.waitKey x) s = .next (s.setMode (.awaitingKey x)) := if_pos h

theorem exec_waitKey_captures {s : State} (h : s.keys ≠ 0) (x : Nibble) :
    exec (.waitKey x) s = .next (s.captureKey x).advance := if_neg h

theorem keys_ne_zero_iff (s : State) : s.keys ≠ 0 ↔ ∃ k, s.key k = true := by
  rw [Ne, keys_eq_zero_iff]; simp

/-- The key captured is a pressed one. -/
theorem captureKey_pressed {s : State} (h : ∃ k, s.key k = true) (x : Nibble) :
    ∃ k, s.key k = true ∧ (s.captureKey x).getV x = k.setWidth 8 := by
  obtain ⟨k, hk⟩ := h
  exact ⟨pickKey s.keys s.keyChoice, pickKey_pressed s.keyChoice hk, by rw [State.getV_captureKey, if_pos rfl]⟩

/-- The key the draw names is the one captured where it is pressed. -/
theorem captureKey_keyChoice {s : State} (h : s.key s.keyChoice = true) (x : Nibble) :
    (s.captureKey x).getV x = s.keyChoice.setWidth 8 := by
  have hpick : pickKey s.keys s.keyChoice = s.keyChoice := if_pos h
  rw [State.getV_captureKey, if_pos rfl, hpick]

theorem unchangedBut_capture (s : State) (x : Nibble) :
    UnchangedBut [.v x, .pc, .keyChoice, .drawn] s (s.captureKey x).advance :=
  ((unchangedBut_captureKey s x).trans (unchangedBut_advance _)).mono (by simp)

/-- Settles O28: the handler asks whether the key vector is 0, and captures from it where it is not. -/
theorem waitKeySuspendsOrCaptures : Obligations.WaitKeySuspendsOrCaptures := fun s x =>
  ⟨fun h => ⟨_, exec_waitKey_suspends ((keys_eq_zero_iff s).2 h) x, rfl, unchangedBut_setMode s _⟩,
   fun h => ⟨_, exec_waitKey_captures ((keys_ne_zero_iff s).2 h) x, captureKey_pressed h x,
     fun hc => captureKey_keyChoice hc x, rfl, unchangedBut_capture s x⟩⟩

/-! ### The lenient no-op (R80) -/

theorem unchangedBut_lenient (s : State) : UnchangedBut [.lenientCount, .pc] s s.countLenient.advance :=
  (unchangedBut_countLenient s).trans (unchangedBut_advance _)

theorem exec_lenient {i : Instr} (h : i.isLenient = true) (s : State) : exec i s = .next s.countLenient.advance := by
  cases i with
  | nopLenient0 | nopLenient8 | nopLenientE | nopLenientF => rfl
  | _ => cases h

/-- Settles O29: the four handlers are one, which counts and goes on. -/
theorem lenientNoOpCountsItself : Obligations.LenientNoOpCountsItself := by
  intro s low i hi
  have hl : i.isLenient = true := by
    simp only [List.mem_cons, List.not_mem_nil, or_false] at hi
    rcases hi with rfl | rfl | rfl | rfl <;> rfl
  exact ⟨_, exec_lenient hl s, rfl, rfl, unchangedBut_lenient s⟩

end Sys2Proof.Machine
end

section
/-! PROOFS. How a handler ends (spec 40_execution_cycle.md R104): the fatal cause it raises, if any, and the parts it may
write where it completes, each read off the instruction once. -/

namespace Sys2Proof.Machine

/-- The fatal error the handler of `i` raises from `s`, if it raises one (R231). -/
def raisedBy (i : Instr) (s : State) : Option FatalCause :=
  match i with
  | .ret _ => if 0 < s.sp.val then none else some .stackUnderflow
  | .call _ => if s.sp.val < 16 then none else some .stackOverflow
  | .draw _ _ n => if inMemory (indexAddr s) n.toNat then none else some .memOutOfBounds
  | .storeBcd _ => if inMemory (indexAddr s) 3 then none else some .memOutOfBounds
  | .storeRegs x | .loadRegs x => if inMemory (indexAddr s) (regCount x) then none else some .memOutOfBounds
  | .skipKeyPressed x | .skipKeyNotPressed x => if (s.getV x).toNat ≤ 15 then none else some .keyIndexOutOfRange
  | _ => none

/-- The parts of the state the handler of `i` may write where it completes. -/
def writtenBy (i : Instr) (s : State) : List Part :=
  match i with
  | .clear _ => .redraw :: .pc :: pixelParts
  | .ret _ => [.sp, .pc]
  | .call _ => .sp :: .pc :: (List.finRange 16).map .stack
  | .jump _ | .jumpOffset _ | .skipEqImm _ _ | .skipNeImm _ _ | .skipEqReg _ _ _ | .skipNeReg _ _ _ | .skipKeyPressed _
  | .skipKeyNotPressed _ => [.pc]
  | .loadImm x _ | .addImm x _ | .loadReg x _ | .orReg x _ | .andReg x _ | .xorReg x _ | .getDelay x => [.v x, .pc]
  | .addReg x _ | .subReg x _ | .shr x _ | .subnReg x _ | .shl x _ => [.v x, .v 0xF, .pc]
  | .loadI _ | .addToI _ | .loadFontAddr _ => [.i, .pc]
  | .random x _ => [.v x, .pc, .rand, .drawn]
  | .draw _ _ _ => .v 0xF :: .redraw :: .pc :: pixelParts
  | .setDelay _ => [.dt, .pc]
  | .setSound _ => [.st, .pc]
  | .storeBcd _ => .pc :: memParts s.i.toNat 3
  | .storeRegs x => .pc :: memParts s.i.toNat (x.toNat + 1)
  | .loadRegs x => .pc :: regParts x
  | .waitKey x => [.v x, .pc, .keyChoice, .drawn]
  | .nopLenient0 _ | .nopLenient8 _ | .nopLenientE _ | .nopLenientF _ => [.lenientCount, .pc]

theorem exec_raises {i : Instr} {s : State} {c : FatalCause} (h : raisedBy i s = some c) : exec i s = raise c i s := by
  cases i with
  | ret z =>
    obtain ⟨hp, hc⟩ := Option.ite_none_left_eq_some.1 h
    cases hc; exact execRet_neg z s hp
  | call nnn =>
    obtain ⟨hp, hc⟩ := Option.ite_none_left_eq_some.1 h
    cases hc; exact execCall_neg nnn s hp
  | draw x y n =>
    obtain ⟨hp, hc⟩ := Option.ite_none_left_eq_some.1 h
    cases hc; exact execDraw_neg x y n s hp
  | storeBcd x =>
    obtain ⟨hp, hc⟩ := Option.ite_none_left_eq_some.1 h
    cases hc; exact execStoreBcd_neg x s hp
  | storeRegs x =>
    obtain ⟨hp, hc⟩ := Option.ite_none_left_eq_some.1 h
    cases hc; exact execStoreRegs_neg x s hp
  | loadRegs x =>
    obtain ⟨hp, hc⟩ := Option.ite_none_left_eq_some.1 h
    cases hc; exact execLoadRegs_neg x s hp
  | skipKeyPressed x =>
    obtain ⟨hp, hc⟩ := Option.ite_none_left_eq_some.1 h
    cases hc; exact exec_skipKeyPressed_none (keyIndex_neg x s hp)
  | skipKeyNotPressed x =>
    obtain ⟨hp, hc⟩ := Option.ite_none_left_eq_some.1 h
    cases hc; exact exec_skipKeyNotPressed_none (keyIndex_neg x s hp)
  | _ => cases h

theorem of_ite_none_eq_none {α : Type} {p : Prop} [Decidable p] {a : α} (h : (if p then none else some a) = none) : p := by
  by_contra hp
  rw [if_neg hp] at h
  cases h

/-- A handler that raises nothing and does not suspend completes, and writes no part but its own. -/
theorem exec_completes {i : Instr} {s : State} (h : raisedBy i s = none) (hk : ∀ x, i = .waitKey x → s.keys ≠ 0) :
    ∃ t, exec i s = .next t ∧ UnchangedBut (writtenBy i s) s t := by
  cases i with
  | clear z => exact ⟨_, exec_clear z s, unchangedBut_show_advance s _⟩
  | ret z => exact ⟨_, execRet_pos z s (of_ite_none_eq_none h), unchangedBut_ret s _⟩
  | call nnn =>
    have hp : s.sp.val < 16 := of_ite_none_eq_none h
    exact ⟨_, execCall_pos nnn s hp, (unchangedBut_call s _ _ hp).mono (by simp [writtenBy])⟩
  | jump nnn => exact ⟨_, exec_jump nnn s, unchangedBut_goto s _⟩
  | jumpOffset nnn => exact ⟨_, exec_jumpOffset nnn s, unchangedBut_goto s _⟩
  | skipEqImm x kk => exact ⟨_, exec_skipEqImm x kk s, unchangedBut_goto s _⟩
  | skipNeImm x kk => exact ⟨_, exec_skipNeImm x kk s, unchangedBut_goto s _⟩
  | skipEqReg x y n => exact ⟨_, exec_skipEqReg x y n s, unchangedBut_goto s _⟩
  | skipNeReg x y n => exact ⟨_, exec_skipNeReg x y n s, unchangedBut_goto s _⟩
  | skipKeyPressed x =>
    exact ⟨_, exec_skipKeyPressed_some (keyIndex_pos x s (of_ite_none_eq_none h)), unchangedBut_goto s _⟩
  | skipKeyNotPressed x =>
    exact ⟨_, exec_skipKeyNotPressed_some (keyIndex_pos x s (of_ite_none_eq_none h)), unchangedBut_goto s _⟩
  | loadImm x kk => exact ⟨_, exec_loadImm x kk s, unchangedBut_setV_advance s x _⟩
  | addImm x kk => exact ⟨_, exec_addImm x kk s, unchangedBut_setV_advance s x _⟩
  | loadReg x y => exact ⟨_, exec_loadReg x y s, unchangedBut_setV_advance s x _⟩
  | orReg x y => exact ⟨_, exec_orReg x y s, unchangedBut_setV_advance s x _⟩
  | andReg x y => exact ⟨_, exec_andReg x y s, unchangedBut_setV_advance s x _⟩
  | xorReg x y => exact ⟨_, exec_xorReg x y s, unchangedBut_setV_advance s x _⟩
  | getDelay x => exact ⟨_, exec_getDelay x s, unchangedBut_setV_advance s x _⟩
  | addReg x y => exact ⟨_, exec_addReg x y s, unchangedBut_writeResultAndFlag_advance x _ _ s⟩
  | subReg x y => exact ⟨_, exec_subReg x y s, unchangedBut_writeResultAndFlag_advance x _ _ s⟩
  | shr x y => exact ⟨_, exec_shr x y s, unchangedBut_writeResultAndFlag_advance x _ _ s⟩
  | subnReg x y => exact ⟨_, exec_subnReg x y s, unchangedBut_writeResultAndFlag_advance x _ _ s⟩
  | shl x y => exact ⟨_, exec_shl x y s, unchangedBut_writeResultAndFlag_advance x _ _ s⟩
  | loadI nnn => exact ⟨_, exec_loadI nnn s, unchangedBut_setI_advance s _⟩
  | addToI x => exact ⟨_, exec_addToI x s, unchangedBut_setI_advance s _⟩
  | loadFontAddr x => exact ⟨_, exec_loadFontAddr x s, unchangedBut_setI_advance s _⟩
  | random x kk => exact ⟨_, exec_random x kk s, unchangedBut_random s x _⟩
  | draw x y n => exact ⟨_, execDraw_pos x y n s (of_ite_none_eq_none h), unchangedBut_afterDraw x y n s⟩
  | setDelay x => exact ⟨_, exec_setDelay x s, (unchangedBut_setDt s _).trans (unchangedBut_advance _)⟩
  | setSound x => exact ⟨_, exec_setSound x s, (unchangedBut_setSt s _).trans (unchangedBut_advance _)⟩
  | storeBcd x =>
    exact ⟨_, execStoreBcd_pos x s (of_ite_none_eq_none h), unchangedBut_store s _ (bcdBytes (s.getV x))⟩
  | storeRegs x => exact ⟨_, execStoreRegs_pos x s (of_ite_none_eq_none h), unchangedBut_storeRegs s x⟩
  | loadRegs x => exact ⟨_, execLoadRegs_pos x s (of_ite_none_eq_none h), unchangedBut_loadRegs s x⟩
  | waitKey x => exact ⟨_, exec_waitKey_captures (hk x rfl) x, unchangedBut_capture s x⟩
  | nopLenient0 | nopLenient8 | nopLenientE | nopLenientF => exact ⟨_, exec_lenient rfl s, unchangedBut_lenient s⟩

/-- The three ways a handler ends (R104): Completed, with no part written but its own; Suspended, which is WAIT-KEY with no
key pressed; Fatal, with its cause. -/
theorem exec_cases {i : Instr} {s t : State} (h : exec i s = .next t) :
    (raisedBy i s = none ∧ UnchangedBut (writtenBy i s) s t) ∨
    (∃ x, i = .waitKey x ∧ s.keys = 0 ∧ t = s.setMode (.awaitingKey x)) ∨
    (∃ c, raisedBy i s = some c ∧ t = s.enterFatal c s.pc (encode i)) := by
  cases hc : raisedBy i s with
  | some c =>
    rw [exec_raises hc, raise_eq] at h
    cases h
    exact .inr (.inr ⟨c, rfl, rfl⟩)
  | none =>
    by_cases hw : ∃ x, i = .waitKey x ∧ s.keys = 0
    · obtain ⟨x, rfl, hk⟩ := hw
      rw [exec_waitKey_suspends hk] at h
      cases h
      exact .inr (.inl ⟨x, rfl, hk, rfl⟩)
    · obtain ⟨u, hu, hf⟩ := exec_completes hc fun x hx hk => hw ⟨x, hx, hk⟩
      rw [hu] at h
      cases h
      exact .inl ⟨rfl, hf⟩

/-- No handler writes MODE, the fault record, the keys or the configuration where it completes. -/
theorem notMem_writtenBy (i : Instr) (s : State) :
    .mode ∉ writtenBy i s ∧ .faultCause ∉ writtenBy i s ∧ .faultPc ∉ writtenBy i s ∧ .faultInstr ∉ writtenBy i s ∧
      .keys ∉ writtenBy i s ∧ .cfg ∉ writtenBy i s := by
  cases i <;> simp [writtenBy, pixelParts, memParts, regParts]

end Sys2Proof.Machine
end

section
/-! PROOFS. Who may write a part of the state, in a handler (spec 10_state.md): read off the parts written by a handler that
completes, because a suspended one writes MODE alone and a fatal one MODE and the fault record. -/

namespace Sys2Proof.Machine

/-- Whatever way a handler ends, it changes no part but those it may write, MODE and the fault record. -/
theorem exec_frame {i : Instr} {s t : State} (h : exec i s = .next t) :
    UnchangedBut (writtenBy i s ++ fatalParts) s t := by
  rcases exec_cases h with ⟨-, hf⟩ | ⟨x, -, -, rfl⟩ | ⟨c, -, rfl⟩
  · exact hf.mono (List.subset_append_left _ _)
  · exact (unchangedBut_setMode s _).mono (by simp [fatalParts])
  · exact (unchangedBut_enterFatal s c _ _).mono (List.subset_append_right _ _)

/-- A part that a handler changed, other than MODE and the fault record, is one that it may write. -/
theorem mem_writtenBy_of_exec {i : Instr} {s t : State} {p : Part} (h : exec i s = .next t) (hp : ¬ p.same s t)
    (hf : p ∉ fatalParts := by simp [fatalParts]) : p ∈ writtenBy i s := by
  by_contra hn
  exact hp (exec_frame h p (by simp [hn, hf]))

/-! ### The writers of each part -/

theorem i_mem_writtenBy {i : Instr} {s : State} :
    .i ∈ writtenBy i s ↔ (∃ nnn, i = .loadI nnn) ∨ ∃ x, i = .addToI x ∨ i = .loadFontAddr x := by
  cases i <;> simp [writtenBy, pixelParts, memParts, regParts]

theorem stack_mem_writtenBy {i : Instr} {s : State} {j : Fin 16} :
    .stack j ∈ writtenBy i s ↔ ∃ nnn, i = .call nnn := by
  cases i <;> simp [writtenBy, pixelParts, memParts, regParts]

theorem sp_mem_writtenBy {i : Instr} {s : State} :
    .sp ∈ writtenBy i s ↔ (∃ nnn, i = .call nnn) ∨ ∃ z, i = .ret z := by
  cases i <;> simp [writtenBy, pixelParts, memParts, regParts]

theorem dt_mem_writtenBy {i : Instr} {s : State} : .dt ∈ writtenBy i s ↔ ∃ x, i = .setDelay x := by
  cases i <;> simp [writtenBy, pixelParts, memParts, regParts]

theorem st_mem_writtenBy {i : Instr} {s : State} : .st ∈ writtenBy i s ↔ ∃ x, i = .setSound x := by
  cases i <;> simp [writtenBy, pixelParts, memParts, regParts]

theorem lenientCount_mem_writtenBy {i : Instr} {s : State} : .lenientCount ∈ writtenBy i s ↔ i.isLenient = true := by
  cases i <;> simp [writtenBy, pixelParts, memParts, regParts, Instr.isLenient]

theorem mem_mem_writtenBy {i : Instr} {s : State} {a : Nat} (h : .mem a ∈ writtenBy i s) :
    ∃ x, i = .storeBcd x ∨ i = .storeRegs x := by
  cases i <;> simp [writtenBy, pixelParts, regParts] at h ⊢

/-- CLEAR and DRAW, the writers of the framebuffer and of REDRAW. -/
def IsDrawing (i : Instr) : Prop := (∃ z, i = .clear z) ∨ ∃ x y n, i = .draw x y n

theorem pixel_mem_writtenBy {i : Instr} {s : State} {cx : Fin 64} {cy : Fin 32} :
    .pixel cx cy ∈ writtenBy i s ↔ IsDrawing i := by
  cases i <;> simp [writtenBy, memParts, regParts, IsDrawing]

theorem redraw_mem_writtenBy {i : Instr} {s : State} : .redraw ∈ writtenBy i s ↔ IsDrawing i := by
  cases i <;> simp [writtenBy, pixelParts, memParts, regParts, IsDrawing]

/-- Settles O30: a register changed is one the handler may write: its x, one of V0 to Vx of LOAD-REGS, or VF of an instruction
that writes the flag. -/
theorem registersChangeOnlyAsNamedOrAsFlag : Obligations.RegistersChangeOnlyAsNamedOrAsFlag := by
  intro i s t r h hr
  have hm : .v r ∈ writtenBy i s := mem_writtenBy_of_exec h hr
  cases i with
  | loadRegs x => simpa [writtenBy, mem_regParts] using hm
  | addReg x | subReg x | shr x | subnReg x | shl x =>
    have hx : r = x ∨ r = 0xF := by simpa [writtenBy] using hm
    rcases hx with rfl | rfl <;> simp
  | draw => simpa [writtenBy, pixelParts] using hm
  | loadImm x | addImm x | loadReg x | orReg x | andReg x | xorReg x | getDelay x | random x | waitKey x =>
    obtain rfl : r = x := by simpa [writtenBy] using hm
    simp
  | _ => simp [writtenBy, pixelParts, memParts] at hm

/-- Settles O31: each part changed is one the handler may write, and the writers of each part are listed above. -/
theorem indexStackTimersChangeOnlyByTheirWriters : Obligations.IndexStackTimersChangeOnlyByTheirWriters := by
  intro i s t h
  refine ⟨fun hc => i_mem_writtenBy.1 (mem_writtenBy_of_exec h hc), fun hc => ?_,
    fun hc => sp_mem_writtenBy.1 (mem_writtenBy_of_exec h hc), fun hc => dt_mem_writtenBy.1 (mem_writtenBy_of_exec h hc),
    fun hc => st_mem_writtenBy.1 (mem_writtenBy_of_exec h hc),
    fun hc => lenientCount_mem_writtenBy.1 (mem_writtenBy_of_exec h hc)⟩
  by_contra hn
  refine hc (Vector.ext fun j hj => by_contra fun hne => hn ?_)
  exact stack_mem_writtenBy.1 (mem_writtenBy_of_exec (p := .stack ⟨j, hj⟩) h hne)

end Sys2Proof.Machine
end

section
/-! PROOFS. What a step can do (spec 40_execution_cycle.md R101 to R108), said once: six moves. -/

namespace Sys2Proof.Machine

/-- The ways a step that answers a next state can go. -/
inductive Move (s : State) : State → Prop
  /-- A suspended WAIT-KEY with no key pressed: nothing changes. -/
  | blocked (x : Nibble) : s.mode = .awaitingKey x → s.keys = 0 → Move s s
  /-- A suspended WAIT-KEY captures a key and is completed. -/
  | captured (x : Nibble) : s.mode = .awaitingKey x → s.keys ≠ 0 →
      Move s (finish ((s.captureKey x).advance.setMode .running)).state
  /-- The two bytes at PC do not lie in memory. -/
  | noFetch : s.mode = .running → s.canFetch = false → Move s (s.enterFatal .pcOutOfBounds s.pc 0x0000)
  /-- The instruction at PC completes. -/
  | completed (u : State) : s.mode = .running → s.canFetch = true → exec (decodeWord s.fetchWord) s = .next u →
      raisedBy (decodeWord s.fetchWord) s = none → UnchangedBut (writtenBy (decodeWord s.fetchWord) s) s u →
      Move s (finish u).state
  /-- The instruction at PC is a WAIT-KEY and no key is pressed. -/
  | suspended (x : Nibble) : s.mode = .running → s.canFetch = true → decodeWord s.fetchWord = .waitKey x → s.keys = 0 →
      Move s (s.setMode (.awaitingKey x))
  /-- The instruction at PC raises a fatal error. -/
  | fatal (c : FatalCause) : s.mode = .running → s.canFetch = true → raisedBy (decodeWord s.fetchWord) s = some c →
      Move s (s.enterFatal c s.pc s.fetchWord)

theorem stepAwaiting_blocks {s : State} (h : s.keys = 0) (x : Nibble) : stepAwaiting x s = ⟨s, .blocked, false⟩ := if_pos h

theorem stepAwaiting_captures {s : State} (h : s.keys ≠ 0) (x : Nibble) :
    stepAwaiting x s = finish ((s.captureKey x).advance.setMode .running) := if_neg h

/-- A handler that completes leaves MODE, the keys and the configuration as they were. -/
theorem UnchangedBut.mode_eq {i : Instr} {s u : State} (h : UnchangedBut (writtenBy i s) s u) : u.mode = s.mode :=
  h .mode (notMem_writtenBy i s).1

theorem UnchangedBut.cfg_eq {i : Instr} {s u : State} (h : UnchangedBut (writtenBy i s) s u) : u.cfg = s.cfg :=
  h .cfg (notMem_writtenBy i s).2.2.2.2.2

theorem step_move {s t : State} (h : step s = .next t) : Move s t := by
  rcases step_cases h with ⟨x, hm, rfl⟩ | ⟨hm, hf, rfl⟩ | ⟨hm, hf, u, hu, rfl⟩
  · by_cases hk : s.keys = 0
    · rw [stepAwaiting_blocks hk]; exact .blocked x hm hk
    · rw [stepAwaiting_captures hk]; exact .captured x hm hk
  · exact .noFetch hm hf
  · rcases exec_cases hu with ⟨hc, hfr⟩ | ⟨x, hx, hk, rfl⟩ | ⟨c, hc, rfl⟩
    · rw [settle_running (hfr.mode_eq.trans hm)]; exact .completed u hm hf hu hc hfr
    · rw [settle_awaiting rfl]; exact .suspended x hm hf hx hk
    · rw [settle_halted rfl, encode_decodeWord]; exact .fatal c hm hf hc

/-- The end of an instruction writes the timers alone (R105). -/
theorem unchangedBut_finish (t : State) : UnchangedBut [.dt, .st] t (finish t).state := by
  rw [finish_state]
  split
  · exact unchangedBut_decayTimers t
  · exact .refl _ t

theorem finish_mode (t : State) : (finish t).state.mode = t.mode := unchangedBut_finish t .mode (by simp)

theorem unchangedBut_captured (s : State) (x : Nibble) :
    UnchangedBut [.v x, .pc, .mode, .dt, .st, .keyChoice, .drawn] s
      (finish ((s.captureKey x).advance.setMode .running)).state :=
  (((unchangedBut_capture s x).trans (unchangedBut_setMode _ _)).trans (unchangedBut_finish _)).mono (by simp)

/-- The parts a step may write whatever the instruction is, but for the register that takes a captured key. -/
def cycleParts : List Part := [.pc, .mode, .dt, .st, .keyChoice, .drawn, .faultCause, .faultPc, .faultInstr]

/-- A part that a step changed is one that its instruction may write, or one that the cycle writes itself. -/
theorem Move.changed {s t : State} {p : Part} (m : Move s t) (hp : ¬ p.same s t) :
    (s.mode = .running ∧ p ∈ writtenBy (decodeWord s.fetchWord) s) ∨ (∃ x, p = .v x) ∨ p ∈ cycleParts := by
  cases m with
  | blocked => exact absurd (p.same_refl s) hp
  | captured x =>
    have hm := by_contra fun hn => hp (unchangedBut_captured s x p hn)
    refine .inr ?_
    simp only [List.mem_cons, List.not_mem_nil, or_false] at hm
    rcases hm with rfl | rfl | rfl | rfl | rfl | rfl | rfl <;> simp [cycleParts]
  | noFetch =>
    have hm := by_contra fun hn => hp (unchangedBut_enterFatal s .pcOutOfBounds s.pc 0x0000 p hn)
    exact .inr (.inr (by simp [fatalParts, cycleParts] at hm ⊢; tauto))
  | completed u hm hf hu hc hfr =>
    have hw := by_contra fun hn => hp (hfr.trans (unchangedBut_finish u) p hn)
    rcases List.mem_append.1 hw with hw | hw
    · exact .inl ⟨hm, hw⟩
    · exact .inr (.inr (by simp [cycleParts] at hw ⊢; tauto))
  | suspended x =>
    have hm := by_contra fun hn => hp (unchangedBut_setMode s (.awaitingKey x) p hn)
    exact .inr (.inr (by simp [cycleParts] at hm ⊢; tauto))
  | fatal c =>
    have hm := by_contra fun hn => hp (unchangedBut_enterFatal s c s.pc s.fetchWord p hn)
    exact .inr (.inr (by simp [fatalParts, cycleParts] at hm ⊢; tauto))

end Sys2Proof.Machine
end

section
/-! PROOFS. What a host action can do (spec 60_exceptions.md R260 to R265), and who may write memory, pixels, REDRAW, keys and
configuration over every action. -/

namespace Sys2Proof.Machine

/-- A step action in a mode other than Halted is a move; in Halted mode it changes nothing. -/
theorem act_step_cases {s t : State} (h : act .step s = .next t) :
    (s.mode = .halted ∧ t = s) ∨ Move s t := by
  rcases act_step h with hs | ⟨hm, ht⟩
  · exact .inr (step_move hs)
  · exact .inl ⟨hm, ht⟩

/-- An action other than reset and step writes the timers, the keys, REDRAW and the draw inputs at most. -/
theorem act_port {a : HostAction} {s t : State} (hr : a ≠ .reset) (hs : a ≠ .step) (h : act a s = .next t) :
    ∃ d e k r b c, t = { s with dt := d, st := e, keys := k, redraw := r, rand := b, keyChoice := c } := by
  cases a with
  | reset => exact absurd rfl hr
  | step => exact absurd rfl hs
  | tick =>
    cases h
    unfold State.tick
    split <;> exact ⟨_, _, _, _, _, _, rfl⟩
  | write index value =>
    cases h
    unfold State.hostWrite
    split
    · exact ⟨_, _, _, _, _, _, rfl⟩
    · split
      · split <;> exact ⟨_, _, _, _, _, _, rfl⟩
      · exact ⟨_, _, _, _, _, _, rfl⟩
  | setKey k p => cases h; exact ⟨_, _, _, _, _, _, rfl⟩
  | presentRand b => cases h; exact ⟨_, _, _, _, _, _, rfl⟩
  | presentKeyChoice k => cases h; exact ⟨_, _, _, _, _, _, rfl⟩

/-- The parts that an action other than reset and step may write. -/
def portParts : List Part := [.dt, .st, .keys, .redraw, .rand, .keyChoice]

theorem unchangedBut_port {a : HostAction} {s t : State} (hr : a ≠ .reset) (hs : a ≠ .step) (h : act a s = .next t) :
    UnchangedBut portParts s t := by
  obtain ⟨d, e, k, r, b, c, rfl⟩ := act_port hr hs h
  intro p hp
  cases p with
  | dt | st | keys | redraw | rand | keyChoice => simp [portParts] at hp
  | _ => rfl

/-- A part that an action changed, if neither the host's port nor the step cycle writes it by itself: the action is reset,
or a step whose instruction may write that part. -/
theorem act_changed {a : HostAction} {s t : State} {p : Part} (h : act a s = .next t) (hp : ¬ p.same s t)
    (hport : p ∉ portParts) (hcycle : p ∉ cycleParts) (hv : ∀ x, p ≠ .v x) :
    a = .reset ∨ (a = .step ∧ s.mode = .running ∧ p ∈ writtenBy (decodeWord s.fetchWord) s) := by
  by_cases hr : a = .reset
  · exact .inl hr
  · by_cases hs : a = .step
    · subst hs
      rcases act_step_cases h with ⟨-, rfl⟩ | hmove
      · exact absurd (p.same_refl _) hp
      · rcases hmove.changed hp with ⟨hm, hw⟩ | ⟨x, hx⟩ | hc
        · exact .inr ⟨rfl, hm, hw⟩
        · exact absurd hx (hv x)
        · exact absurd hc hcycle
    · exact absurd (unchangedBut_port hr hs h p hport) hp

/-- Settles O32: memory is no part of the port or of the cycle, and its writers among the handlers are the two stores. -/
theorem memoryChangesOnlyByStoresAndReset : Obligations.MemoryChangesOnlyByStoresAndReset := by
  intro a s t k h hne
  rcases act_changed (p := .mem k) h hne (by simp [portParts]) (by simp [cycleParts]) (by simp) with hr | ⟨ha, hm, hw⟩
  · exact .inl hr
  · exact .inr ⟨ha, hm, mem_mem_writtenBy hw⟩

/-- Settles O33: no pixel is a part of the port or of the cycle, and its writers among the handlers are CLEAR and DRAW. -/
theorem pixelsChangeOnlyByClearDrawAndReset : Obligations.PixelsChangeOnlyByClearDrawAndReset := by
  intro a s t cx cy h hne
  rcases act_changed (p := .pixel cx cy) h hne (by simp [portParts]) (by simp [cycleParts]) (by simp) with hr | ⟨ha, hm, hw⟩
  · exact .inl hr
  · exact .inr ⟨ha, hm, pixel_mem_writtenBy.1 hw⟩

/-! ### REDRAW (R28) -/

/-- CLEAR and DRAW set REDRAW where they complete. -/
theorem redraw_of_drawing {i : Instr} {s u : State} (hi : IsDrawing i) (h : exec i s = .next u)
    (hc : raisedBy i s = none) : u.redraw = true := by
  rcases hi with ⟨z, rfl⟩ | ⟨x, y, n, rfl⟩
  · cases h; rfl
  · rw [exec, execDraw_pos x y n s (of_ite_none_eq_none hc)] at h
    cases h; rfl

/-- A step that changes REDRAW runs a drawing instruction, and a step that runs one without a fatal error sets it. -/
theorem Move.redraw_of_changed {s t : State} (m : Move s t) (hne : t.redraw ≠ s.redraw) :
    s.mode = .running ∧ IsDrawing (decodeWord s.fetchWord) := by
  rcases m.changed (p := .redraw) hne with ⟨hm, hw⟩ | ⟨x, hx⟩ | hc
  · exact ⟨hm, redraw_mem_writtenBy.1 hw⟩
  · cases hx
  · simp [cycleParts] at hc

theorem Move.redraw_of_drawing {s t : State} (m : Move s t) (hm : s.mode = .running) (hi : IsDrawing (decodeWord s.fetchWord))
    (ht : t.mode ≠ .halted) : t.redraw = true := by
  cases m with
  | blocked x hx | captured x hx => rw [hm] at hx; cases hx
  | noFetch | fatal => exact absurd rfl ht
  | suspended x _ _ hx => rw [hx] at hi; simp [IsDrawing] at hi
  | completed u _ _ hu hc =>
    exact (unchangedBut_finish u .redraw (by simp)).trans (Machine.redraw_of_drawing hi hu hc)

/-- A step never clears REDRAW: the instruction that could change it sets it. -/
theorem Move.redraw_mono {s t : State} (m : Move s t) (h : s.redraw = true) : t.redraw = true := by
  by_contra hne
  obtain ⟨hm, hi⟩ := m.redraw_of_changed (by rwa [h])
  cases m with
  | completed u _ _ hu hc =>
    exact hne ((unchangedBut_finish u .redraw (by simp)).trans (Machine.redraw_of_drawing hi hu hc))
  | blocked | noFetch | suspended | fatal => exact hne h
  | captured x hx => rw [hm] at hx; cases hx

/-- The port clears REDRAW only by a write of a 1 to bit 0 of STATUS, and never sets it (R263). -/
theorem redraw_hostWrite (s : State) (index : BitVec 13) (value : BitVec 32) :
    (s.hostWrite index value).redraw = if index = 0x015 ∧ value.getLsbD 0 = true then false else s.redraw := by
  unfold State.hostWrite
  split
  · next h => subst h; simp
  · split
    · next h => subst h; split <;> simp_all
    · next h => rw [if_neg fun hi => h hi.1]

theorem redraw_port {a : HostAction} {s t : State} (hr : a ≠ .reset) (hs : a ≠ .step) (h : act a s = .next t) :
    t.redraw = s.redraw ∨ (t.redraw = false ∧ ∃ value, a = .write 0x015 value ∧ value.getLsbD 0 = true) := by
  cases a with
  | reset => exact absurd rfl hr
  | step => exact absurd rfl hs
  | write index value =>
    cases h
    rw [redraw_hostWrite]
    split
    · next hw => exact .inr ⟨rfl, value, by rw [hw.1], hw.2⟩
    · exact .inl rfl
  | tick => cases h; unfold State.tick; split <;> exact .inl rfl
  | setKey | presentRand | presentKeyChoice => cases h; exact .inl rfl

/-- Settles O34: reset sets REDRAW, a step changes it only by a drawing instruction and only to 1, and the port only by its
STATUS write and only to 0. -/
theorem redrawIsSetByDrawingAndClearedByTheHost : Obligations.RedrawIsSetByDrawingAndClearedByTheHost := by
  intro a s t h
  by_cases hr : a = .reset
  · subst hr
    cases h
    exact ⟨nofun, fun _ _ => .inl rfl, fun _ => rfl, nofun⟩
  by_cases hs : a = .step
  · subst hs
    rcases act_step_cases h with ⟨hm, rfl⟩ | m
    · exact ⟨fun h1 h0 => absurd (h1.symm.trans h0) (by decide), fun h0 h1 => absurd (h0.symm.trans h1) (by decide), nofun,
        fun _ hm' => absurd (hm.symm.trans hm') (by decide)⟩
    · exact ⟨fun h1 h0 => absurd ((m.redraw_mono h1).symm.trans h0) (by decide),
        fun h0 h1 => .inr ⟨rfl, m.redraw_of_changed (by rw [h0, h1]; decide)⟩, nofun,
        fun _ hm _ ht hi => m.redraw_of_drawing hm hi ht⟩
  · have hp := redraw_port hr hs h
    refine ⟨fun h1 h0 => ?_, fun h0 h1 => ?_, fun ha => absurd ha hr, fun ha => absurd ha hs⟩
    · exact (hp.resolve_left (by rw [h1, h0]; decide)).2
    · rcases hp with he | ⟨he, -⟩
      · exact absurd (h1.symm.trans (he.trans h0)) (by decide)
      · exact absurd (h1.symm.trans he) (by decide)

/-! ### Keys and configuration (R29, R36) -/

theorem keys_hostWrite_ne (s : State) {index : BitVec 13} (value : BitVec 32) (h : index ≠ 0x019) :
    (s.hostWrite index value).keys = s.keys := by
  unfold State.hostWrite
  rw [if_neg h]
  split
  · split <;> rfl
  · rfl

theorem keys_port {a : HostAction} {s t : State} (hr : a ≠ .reset) (hs : a ≠ .step) (h : act a s = .next t) :
    t.keys = s.keys ∨ (∃ value, a = .write 0x019 value) ∨ ∃ k p, a = .setKey k p := by
  cases a with
  | reset => exact absurd rfl hr
  | step => exact absurd rfl hs
  | write index value =>
    cases h
    by_cases hi : index = 0x019
    · exact .inr (.inl ⟨value, by rw [hi]⟩)
    · exact .inl (keys_hostWrite_ne s value hi)
  | setKey k p => exact .inr (.inr ⟨k, p, rfl⟩)
  | tick => cases h; unfold State.tick; split <;> exact .inl rfl
  | presentRand | presentKeyChoice => cases h; exact .inl rfl

theorem Move.keys_eq {s t : State} (m : Move s t) : t.keys = s.keys := by
  by_contra hne
  rcases m.changed (p := .keys) hne with ⟨-, hw⟩ | ⟨x, hx⟩ | hc
  · exact (notMem_writtenBy _ s).2.2.2.2.1 hw
  · cases hx
  · simp [cycleParts] at hc

/-- No action changes the configuration (R36). -/
theorem act_cfg {a : HostAction} {s t : State} (h : act a s = .next t) : t.cfg = s.cfg := by
  by_contra hne
  rcases act_changed (p := .cfg) h hne (by simp [portParts]) (by simp [cycleParts]) (by simp) with rfl | ⟨-, -, hw⟩
  · cases h; exact hne rfl
  · exact (notMem_writtenBy _ s).2.2.2.2.2 hw

/-- Settles O35: no handler and no reset writes the keys, and of the port only the KEYS write and the setter do. -/
theorem keysAndConfigurationAreTheHosts : Obligations.KeysAndConfigurationAreTheHosts := by
  intro a s t h
  refine ⟨act_cfg h, fun hne => ?_⟩
  by_cases hr : a = .reset
  · subst hr; cases h; exact absurd rfl hne
  by_cases hs : a = .step
  · subst hs
    rcases act_step_cases h with ⟨-, rfl⟩ | m
    · exact absurd rfl hne
    · exact absurd m.keys_eq hne
  · exact (keys_port hr hs h).resolve_left hne

end Sys2Proof.Machine
end

section
/-! PROOFS. The cause table (spec 60_exceptions.md R231): the fatal error an instruction raises is the one whose condition
holds of the state. -/

namespace Sys2Proof.Machine

theorem raisedBy_ne_pcOutOfBounds (i : Instr) (s : State) : raisedBy i s ≠ some .pcOutOfBounds := by
  cases i <;> simp [raisedBy]

theorem raisedBy_eq_stackOverflow {i : Instr} {s : State} :
    raisedBy i s = some .stackOverflow ↔ ∃ nnn, i = .call nnn ∧ s.sp.val = 16 := by
  have hsp : ¬ s.sp.val < 16 ↔ s.sp.val = 16 := by have := s.sp.isLt; omega
  rw [← hsp]
  cases i <;> simp [raisedBy]

theorem raisedBy_eq_stackUnderflow {i : Instr} {s : State} :
    raisedBy i s = some .stackUnderflow ↔ ∃ z, i = .ret z ∧ s.sp.val = 0 := by
  cases i <;> simp [raisedBy]

theorem raisedBy_eq_keyIndexOutOfRange {i : Instr} {s : State} :
    raisedBy i s = some .keyIndexOutOfRange ↔
      ∃ x, (s.getV x).toNat > 0x0F ∧ (i = .skipKeyPressed x ∨ i = .skipKeyNotPressed x) := by
  cases i <;> simp [raisedBy]

/-- How many bytes the handler of `i` reaches from I, for the instructions that reach any (R53). -/
def transferCount : Instr → Option Nat
  | .draw _ _ n => some n.toNat
  | .storeBcd _ => some 3
  | .storeRegs x | .loadRegs x => some (regCount x)
  | _ => none

theorem raisedBy_eq_memOutOfBounds {i : Instr} {s : State} :
    raisedBy i s = some .memOutOfBounds ↔ ∃ n, transferCount i = some n ∧ ¬ inMemory (indexAddr s) n = true := by
  cases i <;> simp [raisedBy, transferCount]

theorem transferCount_eq_some {i : Instr} {n : Nat} :
    transferCount i = some n ↔
      (∃ x y, i = .draw x y (BitVec.ofNat 4 n) ∧ n < 16) ∨ (∃ x, i = .storeBcd x ∧ n = 3) ∨
      (∃ x, i = .storeRegs x ∧ n = x.toNat + 1) ∨ (∃ x, i = .loadRegs x ∧ n = x.toNat + 1) := by
  cases i with
  | draw x y m =>
    have hm : m.toNat = n ↔ m = BitVec.ofNat 4 n ∧ n < 16 := by
      constructor
      · rintro rfl; exact ⟨by simp, m.isLt⟩
      · rintro ⟨rfl, hn⟩; simp; omega
    simpa [transferCount] using hm
  | storeBcd | storeRegs | loadRegs => simp [transferCount, regCount, eq_comm]
  | _ => simp [transferCount]

/-- Where the fetch succeeds, the table's condition for a cause holds exactly where the instruction raises it. -/
theorem causeFits_iff_raisedBy {s : State} (hf : s.canFetch = true) (c : FatalCause) :
    s.CauseFits c ↔ raisedBy (decodeWord s.fetchWord) s = some c := by
  cases c with
  | stackOverflow => exact raisedBy_eq_stackOverflow.symm
  | stackUnderflow => exact raisedBy_eq_stackUnderflow.symm
  | pcOutOfBounds => simp [State.CauseFits, hf, raisedBy_ne_pcOutOfBounds]
  | keyIndexOutOfRange => exact raisedBy_eq_keyIndexOutOfRange.symm
  | memOutOfBounds =>
    have hroom (n : Nat) : ¬ inMemory (indexAddr s) n = true ↔ 0 < n ∧ s.i.toNat + n > 0x1000 := by
      rw [inMemory_iff, indexAddr]; omega
    simp only [State.CauseFits, raisedBy_eq_memOutOfBounds, transferCount_eq_some, hroom, and_assoc, and_comm]

end Sys2Proof.Machine
end

section
/-! PROOFS. The step (spec 40_execution_cycle.md R100 to R112): fetch, the modes and the precision of a fatal error. -/

namespace Sys2Proof.Machine

theorem canFetch_iff (s : State) : s.canFetch = true ↔ s.pc.toNat + 1 ≤ 0xFFF := decide_eq_true_iff

theorem canFetch_eq_false_iff (s : State) : s.canFetch = false ↔ s.pc.toNat + 1 > 0xFFF := by
  rw [← Bool.not_eq_true, canFetch_iff]; omega

theorem settle_state (t : State) :
    (settle t).state = if t.mode = .running ∧ t.cfg.timerSource = .perInstruction then t.decayTimers.1 else t := by
  cases hm : t.mode with
  | running => simp [settle_running hm, finish_state]
  | awaitingKey x => simp [settle_awaiting hm]
  | halted => simp [settle_halted hm]

/-- Settles O36: the word decoded is the two bytes at PC, and settling decays the timers where the handler completed. -/
theorem stepRunsTheDecodedInstruction : Obligations.StepRunsTheDecodedInstruction := by
  intro s i hm hf hd t ht
  have hi : decodeWord s.fetchWord = i := by
    simp only [decode, Except.ok.injEq, Prod.mk.injEq, and_true] at hd
    exact hd
  rw [step_running hm ((canFetch_iff s).2 hf) (by rw [hi, ht]), settle_state]

/-- Settles O37: the step enters the fatal error with instruction word 0. -/
theorem fetchAboveMemoryIsFatal : Obligations.FetchAboveMemoryIsFatal := fun s hm hf =>
  ⟨_, step_noFetch hm ((canFetch_eq_false_iff s).2 hf), rfl, rfl, rfl, rfl, unchangedBut_enterFatal s _ _ _⟩

/-- Settles O38: with no key pressed the step answers the state it began in; else it captures a key, advances, sets MODE to
Running and ends the instruction, which writes the timers alone. -/
theorem awaitingStepBlocksOrCaptures : Obligations.AwaitingStepBlocksOrCaptures := by
  intro s x hm
  refine ⟨fun h => ?_, fun h => ?_⟩
  · have hb := stepAwaiting_blocks ((keys_eq_zero_iff s).2 h) x
    rw [strobeStep_awaiting hm, step_awaiting hm, hb]
    exact ⟨rfl, rfl⟩
  · have hc := stepAwaiting_captures ((keys_ne_zero_iff s).2 h) x
    obtain ⟨k, hk, hv⟩ := captureKey_pressed h x
    have hfin := unchangedBut_finish ((s.captureKey x).advance.setMode .running)
    refine ⟨_, strobeStep_awaiting hm, step_awaiting hm, ?_⟩
    rw [hc]
    exact ⟨finish_outcome _, finish_mode _, hfin .pc (by simp), ⟨k, hk, (hfin (.v x) (by simp)).trans hv⟩,
      unchangedBut_captured s x⟩

/-- Settles O39: outside Halted the strobe answers a state and its outcome is not Halted; in Halted it reports Halted. -/
theorem stepStopsExactlyWhenHalted : Obligations.StepStopsExactlyWhenHalted := by
  intro s
  refine ⟨fun hm => ?_, fun hm => ⟨strobeStep_halted hm, step_halted hm⟩⟩
  rcases strobeStep_cases s with ⟨h, -⟩ | ⟨x, h, -⟩ | ⟨h, hf, -⟩ | ⟨h, hf, t, ht, -⟩
  · exact absurd h hm
  · exact ⟨_, step_awaiting h⟩
  · exact ⟨_, step_noFetch h hf⟩
  · exact ⟨_, step_running h hf ht⟩

/-! ### The mode transitions (R101) -/

theorem Move.mode_of_awaiting {s t : State} (m : Move s t) {x : Nibble} (hx : s.mode = .awaitingKey x) :
    t.mode = if s.keys = 0 then .awaitingKey x else .running := by
  cases m with
  | blocked y hy hk => rw [if_pos hk, hx]
  | captured y hy hk => rw [if_neg hk]; exact finish_mode _
  | noFetch hm | completed u hm | suspended y hm | fatal c hm => rw [hx] at hm; cases hm

theorem Move.mode_of_running {s t : State} (m : Move s t) (hm : s.mode = .running) :
    t.mode = .running ∨ (t.mode = .halted ∧ t.faultCause ≠ none) ∨
      ∃ x, t.mode = .awaitingKey x ∧ s.canFetch = true ∧ decodeWord s.fetchWord = .waitKey x ∧ s.keys = 0 := by
  cases m with
  | blocked x hx | captured x hx => rw [hm] at hx; cases hx
  | noFetch | fatal => exact .inr (.inl ⟨rfl, by simp⟩)
  | completed u _ _ _ _ hfr => exact .inl ((finish_mode u).trans (hfr.mode_eq.trans hm))
  | suspended x _ hf hx hk => exact .inr (.inr ⟨x, rfl, hf, hx, hk⟩)

theorem Move.mode_of_waitKey {s t : State} (m : Move s t) (hm : s.mode = .running) (hf : s.canFetch = true) {x : Nibble}
    (hi : decodeWord s.fetchWord = .waitKey x) (hk : s.keys = 0) : t.mode = .awaitingKey x := by
  cases m with
  | blocked x hx | captured x hx => rw [hm] at hx; cases hx
  | noFetch _ hf' => rw [hf] at hf'; cases hf'
  | completed u _ _ hu _ hfr =>
    rw [hi, exec_waitKey_suspends hk] at hu
    cases hu
    exact finish_mode _
  | suspended y _ _ hy => rw [hi] at hy; cases hy; rfl
  | fatal c _ _ hc => rw [hi] at hc; cases hc

/-- Settles O40: the table is read off the moves of a step, and no other action but reset writes MODE. -/
theorem modeChangesOnlyAsTheTableSays : Obligations.ModeChangesOnlyAsTheTableSays := by
  intro a s t h
  refine ⟨?_, fun hr hs => unchangedBut_port hr hs h .mode (by simp [portParts]), ?_, ?_, ?_, ?_⟩
  · rintro rfl; cases h; rfl
  · rintro rfl hm
    rw [act, strobeStep_halted hm] at h; cases h; rfl
  · rintro x rfl hx
    rcases act_step_cases h with ⟨hm, -⟩ | m
    · rw [hx] at hm; cases hm
    · exact m.mode_of_awaiting hx
  · rintro rfl hm
    rcases act_step_cases h with ⟨hm', -⟩ | m
    · rw [hm] at hm'; cases hm'
    · exact m.mode_of_running hm
  · rintro x rfl hm hf hi hk
    rcases act_step_cases h with ⟨hm', -⟩ | m
    · rw [hm] at hm'; cases hm'
    · exact m.mode_of_waitKey hm hf hi hk

/-! ### Fatal errors (R231, R232) -/

/-- A step from Running that ends in Halted has entered a fatal error, by a fetch or by its instruction, and done nothing
else. -/
theorem Move.enterFatal_of_halted {s t : State} (m : Move s t) (hm : s.mode = .running) (ht : t.mode = .halted) :
    ∃ c, t = s.enterFatal c s.pc (if c = .pcOutOfBounds then 0x0000 else s.fetchWord) := by
  cases m with
  | blocked x hx | captured x hx => rw [hm] at hx; cases hx
  | noFetch => exact ⟨.pcOutOfBounds, rfl⟩
  | completed u _ _ _ _ hfr => rw [finish_mode, hfr.mode_eq, hm] at ht; cases ht
  | suspended => cases ht
  | fatal c _ _ hc =>
    have hne : c ≠ .pcOutOfBounds := by rintro rfl; exact raisedBy_ne_pcOutOfBounds _ _ hc
    exact ⟨c, by rw [if_neg hne]⟩

/-- Settles O41: entering a fatal error writes the fault record and MODE alone. -/
theorem fatalErrorsArePrecise : Obligations.FatalErrorsArePrecise := by
  intro s t hm h ht
  obtain ⟨c, rfl⟩ := (step_move h).enterFatal_of_halted hm ht
  exact ⟨unchangedBut_enterFatal s c _ _, rfl, c, rfl, rfl⟩

/-- Settles O42: an instruction raises a cause exactly where the table's condition holds, and a fetch raises its own. -/
theorem fatalCausesAreExactlyTheTable : Obligations.FatalCausesAreExactlyTheTable := by
  intro s t c hm h
  cases step_move h with
  | blocked x hx | captured x hx => rw [hm] at hx; cases hx
  | noFetch _ hf =>
    cases c <;> simp [hf, State.CauseFits]
  | completed u _ hf _ hc hfr =>
    simp [hf, causeFits_iff_raisedBy hf, hc, finish_mode, hfr.mode_eq, hm]
  | suspended x _ hf hx =>
    simp [hf, causeFits_iff_raisedBy hf, hx, raisedBy]
  | fatal d _ hf hd =>
    simp [hf, causeFits_iff_raisedBy hf, hd]

/-! ### Timers (R105, R240 to R242) -/

theorem toNat_decTimer (b : Byte) : (decTimer b).toNat = b.toNat - 1 := by
  unfold decTimer
  split
  · next h => subst h; rfl
  · next h =>
    have : b.toNat ≠ 0 := fun e => h (BitVec.eq_of_toNat_eq e)
    have := b.isLt
    rw [BitVec.toNat_sub]
    simp; omega

/-- What the end of an instruction makes of the timers. -/
theorem finish_timers (u : State) :
    (u.cfg.timerSource = .perInstruction →
      (finish u).state.dt.toNat = u.dt.toNat - 1 ∧ (finish u).state.st.toNat = u.st.toNat - 1) ∧
    (u.cfg.timerSource = .externalTick → (finish u).state.dt = u.dt ∧ (finish u).state.st = u.st) := by
  rw [finish_state]
  refine ⟨fun h => ?_, fun h => ?_⟩
  · rw [if_pos h]; exact ⟨toNat_decTimer _, toNat_decTimer _⟩
  · rw [if_neg (by rw [h]; decide)]; exact ⟨rfl, rfl⟩

/-- A completed handler leaves DT and ST as given: its own write, else as they were. -/
theorem timers_of_completed {i : Instr} {s u : State} (h : exec i s = .next u) (hf : UnchangedBut (writtenBy i s) s u) :
    u.dt = s.dtGiven i ∧ u.st = s.stGiven i := by
  constructor
  · cases i with
    | setDelay x => cases h; rfl
    | _ => exact hf .dt (by rw [dt_mem_writtenBy]; simp)
  · cases i with
    | setSound x => cases h; rfl
    | _ => exact hf .st (by rw [st_mem_writtenBy]; simp)

/-- Settles O43: only a completed instruction is finished, and finishing decays the timers once under PER_INSTRUCTION. -/
theorem timersDecayOncePerCompletedInstruction : Obligations.TimersDecayOncePerCompletedInstruction := by
  intro s t h dt st
  cases step_move h with
  | blocked x hx =>
    have hne : s.mode ≠ .running := by rw [hx]; simp
    exact ⟨fun hm => absurd hm hne, fun hm => absurd hm hne, fun _ => ⟨rfl, rfl⟩⟩
  | captured x hx =>
    have hne : s.mode ≠ .running := by rw [hx]; simp
    have hdt : dt = s.dt := if_neg hne
    have hst : st = s.st := if_neg hne
    rw [hdt, hst]
    obtain ⟨hper, hext⟩ := finish_timers ((s.captureKey x).advance.setMode .running)
    exact ⟨fun _ => hper, fun _ => hext, fun hm => absurd (finish_mode _) hm⟩
  | noFetch | suspended | fatal =>
    exact ⟨fun hm => (by cases hm), fun hm => (by cases hm), fun _ => ⟨rfl, rfl⟩⟩
  | completed u hm _ hu _ hfr =>
    obtain ⟨hudt, hust⟩ := timers_of_completed hu hfr
    have hdt : dt = u.dt := (if_pos hm).trans hudt.symm
    have hst : st = u.st := (if_pos hm).trans hust.symm
    rw [hdt, hst, ← hfr.cfg_eq]
    obtain ⟨hper, hext⟩ := finish_timers u
    exact ⟨fun _ => hper, fun _ => hext, fun hne => absurd ((finish_mode u).trans (hfr.mode_eq.trans hm)) hne⟩

theorem tick_edge (s : State) :
    s.tick.2 = true ↔ s.cfg.timerSource = .externalTick ∧ s.mode ≠ .halted ∧ s.st = 1 := by
  unfold State.tick
  split <;> simp_all

/-- Settles O44: the edge of a step is the edge of the finish of a completed instruction, and of no other step. -/
theorem soundEdgeFiresOnTheDecayFromOne : Obligations.SoundEdgeFiresOnTheDecayFromOne := by
  intro s
  refine ⟨fun r hr => ?_, tick_edge s⟩
  rcases strobeStep_cases s with ⟨hm, hs⟩ | ⟨x, hm, hs⟩ | ⟨hm, hf, hs⟩ | ⟨hm, hf, u, hu, hs⟩ <;>
    rw [hs] at hr <;> cases hr
  · simp
  · by_cases hk : s.keys = 0
    · simp [stepAwaiting_blocks hk]
    · simp [stepAwaiting_captures hk, finish_soundEdge, hm]
  · simp
  · rcases exec_cases hu with ⟨-, hfr⟩ | ⟨x, -, -, rfl⟩ | ⟨c, -, rfl⟩
    · simp [settle_running (hfr.mode_eq.trans hm), finish_soundEdge, hm, hfr.cfg_eq, (timers_of_completed hu hfr).2]
    · rw [settle_awaiting rfl]; simp
    · rw [settle_halted rfl]; simp

/-! ### Instruction-fetch coherence (R62) -/

/-- Settles O45: the store writes V0 and V1 at PC + 2 and PC + 3, its PC is that address, and finishing it writes the timers
alone, so the next fetch reads the two bytes stored. -/
theorem storedBytesAreFetchedNext : Obligations.StoredBytesAreFetchedNext := by
  intro s x hm hpc hx hi hroom hd
  have hf : s.canFetch = true := (canFetch_iff s).2 (by omega)
  have he : exec (decodeWord s.fetchWord) s = _ := hd ▸ exec_storeRegs hroom
  have hfin := unchangedBut_finish (s.writeBytes s.i.toNat (regBytes x s)).advance
  have hpc' : (finish (s.writeBytes s.i.toNat (regBytes x s)).advance).state.pc = s.i :=
    (hfin .pc (by simp)).trans hi.symm
  have hread (j : Nibble) (hj : j.toNat ≤ x.toNat) :
      (finish (s.writeBytes s.i.toNat (regBytes x s)).advance).state.readByte (s.i.toNat + j.toNat) = s.getV j :=
    (hfin (.mem _) (by simp)).trans (readByte_storeRegs s hj)
  refine ⟨_, step_running hm hf he, ?_⟩
  rw [settle_running (by simpa using hm)]
  refine ⟨(finish_mode _).trans hm, ?_, ?_⟩
  · rw [canFetch_iff, hpc']; omega
  · rw [State.fetchWord, hpc', wordOfBytes]
    exact congrArg₂ _ (hread 0 (by simp)) (hread 1 hx)

end Sys2Proof.Machine
end

section
/-! PROOFS. The invariants of a run (spec 10_state.md R24, R30, R31, 20_memory.md R50): every move of a step keeps each of
them, and so do reset and the host's port. -/

namespace Sys2Proof.Machine

/-- An action keeps what reset establishes, every move keeps, and the port cannot see. -/
theorem act_keeps {P : State → Prop} (hreset : ∀ s : State, P s.strobeReset)
    (hmove : ∀ {s t}, Move s t → P s → P t)
    (hport : ∀ (s : State) d e k r b c, P s → P { s with dt := d, st := e, keys := k, redraw := r, rand := b, keyChoice := c })
    {a : HostAction} {s t : State} (hs : P s) (h : act a s = .next t) : P t := by
  by_cases hr : a = .reset
  · subst hr; cases h; exact hreset s
  by_cases ha : a = .step
  · subst ha
    rcases act_step_cases h with ⟨-, rfl⟩ | m
    · exact hs
    · exact hmove m hs
  · obtain ⟨d, e, k, r, b, c, rfl⟩ := act_port hr ha h
    exact hport s d e k r b c hs

theorem finish_mem (t : State) : (finish t).state.mem = t.mem := by
  rw [finish_state]; split <;> rfl

theorem finish_cfg (t : State) : (finish t).state.cfg = t.cfg := unchangedBut_finish t .cfg (by simp)

theorem finish_pc (t : State) : (finish t).state.pc = t.pc := unchangedBut_finish t .pc (by simp)

theorem finish_sp (t : State) : (finish t).state.sp = t.sp := unchangedBut_finish t .sp (by simp)

theorem finish_stack (t : State) : (finish t).state.stack = t.stack := by
  rw [finish_state]; split <;> rfl

/-! ### Canonical memory -/

theorem Move.memoryCanonical {s t : State} (m : Move s t) (h : s.MemoryCanonical) : t.MemoryCanonical := by
  cases m with
  | blocked | noFetch | suspended | fatal => exact h
  | captured x => rw [State.MemoryCanonical, finish_mem, finish_cfg]; exact h
  | completed u _ _ hu _ hfr =>
    rw [State.MemoryCanonical, finish_mem, finish_cfg, hfr.cfg_eq]
    rcases exec_mem hu with hm | ⟨bs, -, hb, hm⟩
    · rw [hm]; exact h
    · rw [hm]; exact Memory.writeBytes_wf bs hb h

/-- Settles O47: memory is written by the stores, inside the address space, and emptied by reset. -/
theorem actionsKeepMemoryCanonical : Obligations.ActionsKeepMemoryCanonical := fun _ _ _ hs h =>
  act_keeps (P := State.MemoryCanonical) (fun s => Memory.wf_nil s.cfg.font) Move.memoryCanonical
    (fun _ _ _ _ _ _ _ hs => hs) hs h

/-! ### The bounds on PC and the stack -/

/-- Where a handler that completes leaves PC: 2 or 4 further, a target within 0x10FE, or 2 beyond a popped call site. -/
theorem pc_of_completed {i : Instr} {s u : State} (h : exec i s = .next u) (hc : raisedBy i s = none)
    (hm : s.mode = .running) (hfr : UnchangedBut (writtenBy i s) s u) :
    u.pc = s.pc + 2 ∨ u.pc = s.pc + 4 ∨ u.pc.toNat ≤ 0x10FE ∨ ∃ hp, u.pc = s.top hp + 2 := by
  have hskip (c : Bool) : (s.skipIf c).pc = s.pc + 2 ∨ (s.skipIf c).pc = s.pc + 4 := by cases c <;> simp
  cases i with
  | ret z =>
    have hp : 0 < s.sp.val := of_ite_none_eq_none hc
    rw [exec, execRet_pos z s hp] at h; cases h
    exact .inr (.inr (.inr ⟨hp, rfl⟩))
  | call nnn =>
    rw [exec, execCall_pos nnn s (of_ite_none_eq_none hc)] at h; cases h
    have := nnn.isLt
    exact .inr (.inr (.inl (by simp; omega)))
  | jump nnn =>
    rw [exec_jump] at h; cases h
    have := nnn.isLt
    exact .inr (.inr (.inl (by simp; omega)))
  | jumpOffset nnn =>
    rw [exec_jumpOffset] at h; cases h
    have := nnn.isLt
    have := (s.getV 0).isLt
    exact .inr (.inr (.inl (by rw [State.goto_pc, toNat_offsetTarget]; omega)))
  | skipKeyPressed x =>
    rw [exec_skipKeyPressed_some (keyIndex_pos x s (of_ite_none_eq_none hc))] at h; cases h
    exact (hskip _).imp_right .inl
  | skipKeyNotPressed x =>
    rw [exec_skipKeyNotPressed_some (keyIndex_pos x s (of_ite_none_eq_none hc))] at h; cases h
    exact (hskip _).imp_right .inl
  | skipEqImm | skipNeImm | skipEqReg | skipNeReg => cases h; exact (hskip _).imp_right .inl
  | draw x y n => rw [exec, execDraw_pos x y n s (of_ite_none_eq_none hc)] at h; cases h; exact .inl rfl
  | storeBcd x => rw [exec, execStoreBcd_pos x s (of_ite_none_eq_none hc)] at h; cases h; exact .inl rfl
  | storeRegs x => rw [exec, execStoreRegs_pos x s (of_ite_none_eq_none hc)] at h; cases h; exact .inl rfl
  | loadRegs x => rw [exec, execLoadRegs_pos x s (of_ite_none_eq_none hc)] at h; cases h; exact .inl rfl
  | addReg | subReg | shr | subnReg | shl => cases h; exact .inl (by simp)
  | waitKey x =>
    by_cases hk : s.keys = 0
    · rw [exec_waitKey_suspends hk] at h; cases h
      have hm' : Mode.awaitingKey x = s.mode := hfr.mode_eq
      rw [hm] at hm'; cases hm'
    · rw [exec_waitKey_captures hk] at h; cases h; exact .inl rfl
  | _ => cases h; exact .inl rfl

/-- A handler that completes leaves live entries that were live before, and CALL's own address. -/
theorem live_of_completed {i : Instr} {s u : State} (h : exec i s = .next u) (hc : raisedBy i s = none)
    (hfr : UnchangedBut (writtenBy i s) s u) (j : Fin 16) (hj : j.val < u.sp.val) :
    u.stack[j.val] = s.pc ∨ (j.val < s.sp.val ∧ u.stack[j.val] = s.stack[j.val]) := by
  cases i with
  | call nnn =>
    have hp : s.sp.val < 16 := of_ite_none_eq_none hc
    rw [exec, execCall_pos nnn s hp] at h; cases h
    rw [State.goto_stack, s.getElem_push_stack s.pc hp _ j.isLt]
    have hj' : j.val < s.sp.val + 1 := hj
    split
    · exact .inl rfl
    · exact .inr ⟨by omega, rfl⟩
  | ret z =>
    have hp : 0 < s.sp.val := of_ite_none_eq_none hc
    rw [exec, execRet_pos z s hp] at h; cases h
    have hj' : j.val < s.sp.val - 1 := hj
    exact .inr ⟨by omega, rfl⟩
  | _ =>
    have hsp : u.sp = s.sp := hfr .sp (by rw [sp_mem_writtenBy]; simp)
    exact .inr ⟨hsp ▸ hj, hfr (.stack j) (by rw [stack_mem_writtenBy]; simp)⟩

theorem toNat_add_le (w k : Word) : (w + k).toNat ≤ w.toNat + k.toNat := by
  rw [BitVec.toNat_add]; exact Nat.mod_le _ _

theorem toNat_add_two_le (w : Word) : (w + 2).toNat ≤ w.toNat + 2 := toNat_add_le w 2
theorem toNat_add_four_le (w : Word) : (w + 4).toNat ≤ w.toNat + 4 := toNat_add_le w 4

theorem Move.pcBounded {s t : State} (m : Move s t) (h : s.PcBounded) : t.PcBounded := by
  obtain ⟨hpc, hwait, hlive⟩ := h
  cases m with
  | blocked => exact ⟨hpc, hwait, hlive⟩
  | noFetch | fatal => exact ⟨hpc, fun y hy => (by cases hy), hlive⟩
  | suspended x _ hf =>
    have := (canFetch_iff s).1 hf
    exact ⟨hpc, fun _ _ => (by rw [State.setMode_pc]; omega), hlive⟩
  | captured x hx =>
    have := hwait x hx
    have := toNat_add_two_le s.pc
    refine ⟨?_, fun y hy => ?_, ?_⟩
    · rw [finish_pc, State.setMode_pc, State.advance_pc, State.captureKey_pc]; omega
    · rw [finish_mode] at hy; cases hy
    · rw [finish_sp, finish_stack]; exact hlive
  | completed u hm hf hu hc hfr =>
    have hfetch := (canFetch_iff s).1 hf
    refine ⟨?_, fun y hy => ?_, ?_⟩
    · rw [finish_pc]
      rcases pc_of_completed hu hc hm hfr with he | he | hle | ⟨hp, he⟩
      · have := toNat_add_two_le s.pc
        rw [he]; omega
      · have := toNat_add_four_le s.pc
        rw [he]; omega
      · exact hle
      · have := hlive ⟨s.sp.val - 1, s.top_lt hp⟩ (by change s.sp.val - 1 < _; omega)
        have := toNat_add_two_le (s.top hp)
        rw [he]; simp only [State.top] at *; omega
    · rw [finish_mode, hfr.mode_eq, hm] at hy; cases hy
    · rw [finish_sp, finish_stack]
      intro j hj
      rcases live_of_completed hu hc hfr j hj with he | ⟨hlt, he⟩
      · rw [he]; omega
      · rw [he]; exact hlive j hlt

theorem pcBounded_strobeReset (s : State) : s.strobeReset.PcBounded :=
  ⟨by rw [State.strobeReset_pc]; decide, fun _ h => (by cases h), fun _ h => absurd h (Nat.not_lt_zero _)⟩

/-- Settles O48: an instruction runs only from a PC of at most 0xFFE, which bounds what CALL pushes and what every other
instruction leaves in PC. -/
theorem actionsKeepThePcBounded : Obligations.ActionsKeepThePcBounded := fun _ _ _ hs h =>
  act_keeps (P := State.PcBounded) pcBounded_strobeReset Move.pcBounded (fun _ _ _ _ _ _ _ hs => hs) hs h

/-! ### PC at the suspended WAIT-KEY -/

theorem Move.awaitsAtWaitKey {s t : State} (m : Move s t) (h : s.AwaitsAtWaitKey) : t.AwaitsAtWaitKey := by
  cases m with
  | blocked => exact h
  | captured x => intro y hy; rw [finish_mode] at hy; cases hy
  | completed u hm _ _ _ hfr => intro y hy; rw [finish_mode, hfr.mode_eq, hm] at hy; cases hy
  | noFetch | fatal => intro y hy; cases hy
  | suspended x _ hf hx => intro y hy; cases hy; exact ⟨hf, hx⟩

/-- Settles O49: AwaitingKey is entered by the WAIT-KEY at PC alone, with PC kept, and a blocked step changes nothing. -/
theorem actionsKeepThePcAtTheWaitKey : Obligations.ActionsKeepThePcAtTheWaitKey := fun _ _ _ hs h =>
  act_keeps (P := State.AwaitsAtWaitKey) (fun _ _ h => (by cases h)) Move.awaitsAtWaitKey
    (fun _ _ _ _ _ _ _ hs => hs) hs h

/-! ### The fault record -/

/-- Outside Halted the record is empty, and that is all the invariant says there. -/
theorem faultRecorded_of_running {t : State} (hm : t.mode = .running)
    (h : t.faultCause = none ∧ t.faultPc = 0 ∧ t.faultInstr = 0) : t.FaultRecorded :=
  ⟨fun _ => h, fun ht => (by rw [hm] at ht; cases ht)⟩

theorem Move.faultRecorded {s t : State} (m : Move s t) (h : s.FaultRecorded) : t.FaultRecorded := by
  obtain ⟨hempty, hrec⟩ := h
  cases m with
  | blocked => exact ⟨hempty, hrec⟩
  | captured x hx =>
    obtain ⟨hc, hp, hi⟩ := hempty (by rw [hx]; simp)
    have hfr := unchangedBut_captured s x
    exact faultRecorded_of_running (finish_mode _) ⟨(hfr .faultCause (by simp)).trans hc,
      (hfr .faultPc (by simp)).trans hp, (hfr .faultInstr (by simp)).trans hi⟩
  | completed u hm _ _ _ hfr =>
    obtain ⟨hc, hp, hi⟩ := hempty (by rw [hm]; simp)
    obtain ⟨-, hnc, hnp, hni, -, -⟩ := notMem_writtenBy (decodeWord s.fetchWord) s
    have hfr' := hfr.trans (unchangedBut_finish u)
    exact faultRecorded_of_running ((finish_mode u).trans (hfr.mode_eq.trans hm))
      ⟨(hfr' .faultCause (by simp [hnc])).trans hc, (hfr' .faultPc (by simp [hnp])).trans hp,
        (hfr' .faultInstr (by simp [hni])).trans hi⟩
  | suspended x hm => exact ⟨fun _ => hempty (by rw [hm]; simp), fun ht => (by cases ht)⟩
  | noFetch _ hf =>
    exact ⟨fun ht => absurd rfl ht, fun _ => ⟨.pcOutOfBounds, rfl, hf, rfl, fun hne => absurd rfl hne, rfl⟩⟩
  | fatal c _ hf hc =>
    have hne : c ≠ .pcOutOfBounds := by rintro rfl; exact raisedBy_ne_pcOutOfBounds _ _ hc
    have hfits : s.CauseFits c := (causeFits_iff_raisedBy hf c).2 hc
    refine ⟨fun ht => absurd rfl ht, fun _ => ⟨c, rfl, ?_, rfl, fun _ => hf, (if_neg hne).symm⟩⟩
    cases c <;> exact hfits

/-- Settles O50: a fatal error is entered with the cause whose condition holds, the PC that stays and the word there; what
the condition speaks of no host action but reset writes. -/
theorem actionsKeepTheFaultRecord : Obligations.ActionsKeepTheFaultRecord := fun _ _ _ hs h =>
  act_keeps (P := State.FaultRecorded) (fun _ => faultRecorded_of_running rfl ⟨rfl, rfl, rfl⟩) Move.faultRecorded
    (fun _ _ _ _ _ _ _ hs => ⟨hs.1, fun hm => by
      obtain ⟨c, hc, hfits, hrest⟩ := hs.2 hm
      exact ⟨c, hc, by cases c <;> exact hfits, hrest⟩⟩) hs h

/-! ### The invariants together -/

/-- Settles O51: every move keeps each of the four. -/
theorem stepKeepsTheInvariants : Obligations.StepKeepsTheInvariants := by
  rintro s t ⟨hmem, hpc, hwait, hfault⟩ h
  have m := step_move h
  exact ⟨m.memoryCanonical hmem, m.pcBounded hpc, m.awaitsAtWaitKey hwait, m.faultRecorded hfault⟩

theorem inv_strobeReset (s : State) : s.strobeReset.Inv :=
  ⟨Memory.wf_nil s.cfg.font, pcBounded_strobeReset s, fun _ h => (by cases h),
    faultRecorded_of_running rfl ⟨rfl, rfl, rfl⟩⟩

theorem launch_eq (s : State) {image : List Byte} (h : image.length ≤ 0xE00) :
    launch s image = .next (s.strobeReset.writeBytes 0x200 image) := if_pos h

theorem launch_eq_refused (s : State) {image : List Byte} (h : image.length > 0xE00) :
    launch s image = .refused .imageTooLong := if_neg (Nat.not_le.2 h)

/-- Settles O52: a launch writes the image over the memory of reset, inside the address space, and nothing else. -/
theorem resetAndLaunchMeetTheInvariants : Obligations.ResetAndLaunchMeetTheInvariants := by
  refine ⟨inv_strobeReset State.reset, fun s t image h => ?_⟩
  by_cases hl : image.length ≤ 0xE00
  · rw [launch_eq s hl] at h
    cases h
    obtain ⟨hmem, hpc, -, -⟩ := inv_strobeReset s
    exact ⟨Memory.writeBytes_wf image (by unfold Config.memSize; omega) hmem, hpc, fun _ h => (by cases h),
      faultRecorded_of_running rfl ⟨rfl, rfl, rfl⟩⟩
  · rw [launch_eq_refused s (by omega)] at h; cases h

end Sys2Proof.Machine
end

section
/-! PROOFS. What is never read (spec 10_state.md R25, R32): two states that agree but for LENIENT_COUNT and the stack entries
at and above SP, as a relation that every operation of a handler keeps. -/

namespace Sys2Proof.Machine

/-- The two states agree in every part but LENIENT_COUNT and the stack entries at and above SP; memory agrees in what it
reads, whatever list it is. -/
structure AgreeButStale (s u : State) : Prop where
  v : u.v = s.v
  i : u.i = s.i
  pc : u.pc = s.pc
  live : ∀ j (h : j < 16), j < s.sp.val → u.stack[j] = s.stack[j]
  sp : u.sp = s.sp
  dt : u.dt = s.dt
  st : u.st = s.st
  mem : ∀ a, u.readByte a = s.readByte a
  fb : u.fb = s.fb
  redraw : u.redraw = s.redraw
  mode : u.mode = s.mode
  faultCause : u.faultCause = s.faultCause
  faultPc : u.faultPc = s.faultPc
  faultInstr : u.faultInstr = s.faultInstr
  keys : u.keys = s.keys
  cfg : u.cfg = s.cfg
  rand : u.rand = s.rand
  keyChoice : u.keyChoice = s.keyChoice
  drawn : u.drawn = s.drawn

/-- The relation is the one of the statement, part by part. -/
theorem agreeButStale_iff (s u : State) : AgreeButStale s u ↔
    ∀ p : Part, p ≠ .lenientCount → (∀ j : Fin 16, p = .stack j → j.val < s.sp.val) → p.same s u := by
  constructor
  · intro h p hl hs
    cases p with
    | v r => exact State.getV_of_v_eq h.v r
    | stack j => exact h.live j.val j.isLt (hs j rfl)
    | mem a => exact h.mem a
    | pixel cx cy => exact congrArg (Framebuffer.get · cx cy) h.fb
    | lenientCount => exact absurd rfl hl
    | i => exact h.i
    | pc => exact h.pc
    | sp => exact h.sp
    | dt => exact h.dt
    | st => exact h.st
    | redraw => exact h.redraw
    | mode => exact h.mode
    | faultCause => exact h.faultCause
    | faultPc => exact h.faultPc
    | faultInstr => exact h.faultInstr
    | keys => exact h.keys
    | cfg => exact h.cfg
    | rand => exact h.rand
    | keyChoice => exact h.keyChoice
    | drawn => exact h.drawn
  · intro h
    exact {
      v := Vector.ext fun j hj => by
        have := h (.v (BitVec.ofNat 4 j)) (by simp) (by simp)
        simpa [Part.same, State.getV, Nat.mod_eq_of_lt hj] using this
      i := h .i (by simp) (by simp)
      pc := h .pc (by simp) (by simp)
      live := fun j hj hlt => h (.stack ⟨j, hj⟩) (by simp) (by rintro _ ⟨⟩; exact hlt)
      sp := h .sp (by simp) (by simp)
      dt := h .dt (by simp) (by simp)
      st := h .st (by simp) (by simp)
      mem := fun a => h (.mem a) (by simp) (by simp)
      fb := Vector.ext fun y hy => Vector.ext fun x hx => h (.pixel ⟨x, hx⟩ ⟨y, hy⟩) (by simp) (by simp)
      redraw := h .redraw (by simp) (by simp)
      mode := h .mode (by simp) (by simp)
      faultCause := h .faultCause (by simp) (by simp)
      faultPc := h .faultPc (by simp) (by simp)
      faultInstr := h .faultInstr (by simp) (by simp)
      keys := h .keys (by simp) (by simp)
      cfg := h .cfg (by simp) (by simp)
      rand := h .rand (by simp) (by simp)
      keyChoice := h .keyChoice (by simp) (by simp)
      drawn := h .drawn (by simp) (by simp) }

namespace AgreeButStale

variable {s u : State}

/-! ### What an operand reads -/

theorem getV_eq (h : AgreeButStale s u) (r : Nibble) : u.getV r = s.getV r := State.getV_of_v_eq h.v r

theorem key_eq (h : AgreeButStale s u) (k : Nibble) : u.key k = s.key k := by simp [State.key, h.keys]

theorem keyIndex_eq (h : AgreeButStale s u) (x : Nibble) : keyIndex x u = keyIndex x s := by
  simp [keyIndex, h.getV_eq]

theorem indexAddr_eq (h : AgreeButStale s u) : indexAddr u = indexAddr s := by simp [indexAddr, h.i]

theorem offsetTarget_eq (h : AgreeButStale s u) (nnn : Imm12) : offsetTarget nnn u = offsetTarget nnn s := by
  simp [offsetTarget, h.getV_eq]

theorem fontAddr_eq (h : AgreeButStale s u) (x : Nibble) : fontAddr x u = fontAddr x s := by simp [fontAddr, h.getV_eq]

theorem regBytes_eq (h : AgreeButStale s u) (x : Nibble) : regBytes x u = regBytes x s := by simp [regBytes, h.getV_eq]

theorem loadedRegs_eq (h : AgreeButStale s u) (x : Nibble) : loadedRegs x u = loadedRegs x s := by
  simp [loadedRegs, h.indexAddr_eq, h.mem, h.v]

theorem drawBlit_eq (h : AgreeButStale s u) (x y n : Nibble) : drawBlit x y n u = drawBlit x y n s := by
  simp [drawBlit, spriteBytes, State.readBytes, h.indexAddr_eq, h.mem, h.getV_eq, h.fb]

/-- The top of the stack is a live entry. -/
theorem top_eq (h : AgreeButStale s u) (hs : 0 < s.sp.val) (hu : 0 < u.sp.val) : u.top hu = s.top hs := by
  simp only [State.top, h.sp]
  exact h.live _ _ (by omega)

theorem fetchWord_eq (h : AgreeButStale s u) : u.fetchWord = s.fetchWord := by simp [State.fetchWord, h.pc, h.mem]

theorem canFetch_eq (h : AgreeButStale s u) : u.canFetch = s.canFetch := by simp [State.canFetch, h.pc]

theorem raisedBy_eq (h : AgreeButStale s u) (i : Instr) : raisedBy i u = raisedBy i s := by
  cases i <;> simp only [raisedBy, h.sp, h.indexAddr_eq, h.getV_eq]

/-! ### What an operation keeps -/

theorem setV (h : AgreeButStale s u) (x : Nibble) (b : Byte) : AgreeButStale (s.setV x b) (u.setV x b) :=
  { h with v := by simp [h.v] }

theorem setRegs (h : AgreeButStale s u) (w : Vector Byte 16) : AgreeButStale (s.setRegs w) (u.setRegs w) :=
  { h with v := rfl }

theorem setI (h : AgreeButStale s u) (w : Word) : AgreeButStale (s.setI w) (u.setI w) := { h with i := rfl }

theorem setDt (h : AgreeButStale s u) (b : Byte) : AgreeButStale (s.setDt b) (u.setDt b) := { h with dt := rfl }

theorem setSt (h : AgreeButStale s u) (b : Byte) : AgreeButStale (s.setSt b) (u.setSt b) := { h with st := rfl }

theorem goto (h : AgreeButStale s u) (w : Word) : AgreeButStale (s.goto w) (u.goto w) := { h with pc := rfl }

theorem advance (h : AgreeButStale s u) : AgreeButStale s.advance u.advance := by
  rw [State.advance, State.advance, h.pc]; exact h.goto _

theorem skipIf (h : AgreeButStale s u) (c : Bool) : AgreeButStale (s.skipIf c) (u.skipIf c) := by
  rw [State.skipIf, State.skipIf, h.pc]; exact h.goto _

/-- The entry pushed becomes live in both states, so the entries below the new SP agree. -/
theorem push (h : AgreeButStale s u) (w : Word) (hs : s.sp.val < 16) (hu : u.sp.val < 16) :
    AgreeButStale (s.push w hs) (u.push w hu) :=
  { h with
    sp := by simp [h.sp]
    live := fun j hj hlt => by
      have hlt' : j < s.sp.val + 1 := hlt
      rw [s.getElem_push_stack w hs j hj, u.getElem_push_stack w hu j hj, h.sp]
      split
      · rfl
      · exact h.live j hj (by omega) }

theorem drop (h : AgreeButStale s u) : AgreeButStale s.drop u.drop :=
  { h with
    sp := by simp [h.sp]
    live := fun j hj hlt => h.live j hj (by have : j < s.sp.val - 1 := hlt; omega) }

theorem showFb (h : AgreeButStale s u) (f : Framebuffer) : AgreeButStale (s.show f) (u.show f) :=
  { h with fb := rfl, redraw := rfl }

theorem afterRand (h : AgreeButStale s u) : AgreeButStale s.afterRand u.afterRand :=
  { h with rand := by simp [h.drawn], drawn := by simp [h.drawn] }

theorem afterKeyChoice (h : AgreeButStale s u) : AgreeButStale s.afterKeyChoice u.afterKeyChoice :=
  { h with keyChoice := by simp [h.drawn], drawn := by simp [h.drawn] }

theorem captureKey (h : AgreeButStale s u) (x : Nibble) : AgreeButStale (s.captureKey x) (u.captureKey x) := by
  rw [State.captureKey, State.captureKey, h.keys, h.keyChoice]; exact (h.setV x _).afterKeyChoice

theorem setMode (h : AgreeButStale s u) (m : Mode) : AgreeButStale (s.setMode m) (u.setMode m) := { h with mode := rfl }

theorem countLenient (h : AgreeButStale s u) : AgreeButStale s.countLenient u.countLenient := { h with }

theorem enterFatal (h : AgreeButStale s u) (c : FatalCause) (p w : Word) :
    AgreeButStale (s.enterFatal c p w) (u.enterFatal c p w) :=
  { h with mode := rfl, faultCause := rfl, faultPc := rfl, faultInstr := rfl }

theorem writeBytes (h : AgreeButStale s u) (a : Nat) (bs : List Byte) :
    AgreeButStale (s.writeBytes a bs) (u.writeBytes a bs) :=
  { h with mem := fun k => by rw [s.readByte_writeBytes, u.readByte_writeBytes, h.mem] }

theorem writeResultAndFlag (h : AgreeButStale s u) (x : Nibble) (r : Byte) (f : Bool) :
    AgreeButStale (writeResultAndFlag x r f s) (writeResultAndFlag x r f u) := by
  unfold Machine.writeResultAndFlag
  rw [h.cfg]
  split
  · split <;> exact (h.setV _ _).setV _ _
  · exact (h.setV _ _).setV _ _

theorem decayTimers (h : AgreeButStale s u) : AgreeButStale s.decayTimers.1 u.decayTimers.1 :=
  { h with dt := by simp [h.dt], st := by simp [h.st] }

/-! ### Handlers and the step -/

/-- A handler run from two states that agree answers states that agree. -/
theorem exec_agrees (h : AgreeButStale s u) (i : Instr) :
    ∃ t w, exec i s = .next t ∧ exec i u = .next w ∧ AgreeButStale t w := by
  cases hc : raisedBy i s with
  | some c =>
    refine ⟨_, _, exec_raises hc, exec_raises ((h.raisedBy_eq i).trans hc), ?_⟩
    rw [h.pc]; exact h.enterFatal _ _ _
  | none =>
    have hcu : raisedBy i u = none := (h.raisedBy_eq i).trans hc
    cases i with
    | clear z => exact ⟨_, _, exec_clear z s, exec_clear z u, (h.showFb _).advance⟩
    | ret z =>
      have hs : 0 < s.sp.val := of_ite_none_eq_none hc
      have hu : 0 < u.sp.val := of_ite_none_eq_none hcu
      exact ⟨_, _, execRet_pos z s hs, execRet_pos z u hu, by rw [h.top_eq hs hu]; exact h.drop.goto _⟩
    | call nnn =>
      have hs : s.sp.val < 16 := of_ite_none_eq_none hc
      have hu : u.sp.val < 16 := of_ite_none_eq_none hcu
      exact ⟨_, _, execCall_pos nnn s hs, execCall_pos nnn u hu, by rw [h.pc]; exact (h.push _ hs hu).goto _⟩
    | jump nnn => exact ⟨_, _, exec_jump nnn s, exec_jump nnn u, h.goto _⟩
    | jumpOffset nnn =>
      exact ⟨_, _, exec_jumpOffset nnn s, exec_jumpOffset nnn u, by rw [h.offsetTarget_eq]; exact h.goto _⟩
    | skipEqImm x kk => exact ⟨_, _, exec_skipEqImm x kk s, exec_skipEqImm x kk u, by rw [h.getV_eq]; exact h.skipIf _⟩
    | skipNeImm x kk => exact ⟨_, _, exec_skipNeImm x kk s, exec_skipNeImm x kk u, by rw [h.getV_eq]; exact h.skipIf _⟩
    | skipEqReg x y n =>
      exact ⟨_, _, exec_skipEqReg x y n s, exec_skipEqReg x y n u, by rw [h.getV_eq, h.getV_eq]; exact h.skipIf _⟩
    | skipNeReg x y n =>
      exact ⟨_, _, exec_skipNeReg x y n s, exec_skipNeReg x y n u, by rw [h.getV_eq, h.getV_eq]; exact h.skipIf _⟩
    | skipKeyPressed x =>
      have hk := keyIndex_pos x s (of_ite_none_eq_none hc)
      exact ⟨_, _, exec_skipKeyPressed_some hk, exec_skipKeyPressed_some ((h.keyIndex_eq x).trans hk),
        by rw [h.key_eq]; exact h.skipIf _⟩
    | skipKeyNotPressed x =>
      have hk := keyIndex_pos x s (of_ite_none_eq_none hc)
      exact ⟨_, _, exec_skipKeyNotPressed_some hk, exec_skipKeyNotPressed_some ((h.keyIndex_eq x).trans hk),
        by rw [h.key_eq]; exact h.skipIf _⟩
    | loadImm x kk => exact ⟨_, _, exec_loadImm x kk s, exec_loadImm x kk u, (h.setV x _).advance⟩
    | addImm x kk => exact ⟨_, _, exec_addImm x kk s, exec_addImm x kk u, by rw [h.getV_eq]; exact (h.setV x _).advance⟩
    | loadReg x y => exact ⟨_, _, exec_loadReg x y s, exec_loadReg x y u, by rw [h.getV_eq]; exact (h.setV x _).advance⟩
    | orReg x y => exact ⟨_, _, exec_orReg x y s, exec_orReg x y u, by rw [h.getV_eq, h.getV_eq]; exact (h.setV x _).advance⟩
    | andReg x y =>
      exact ⟨_, _, exec_andReg x y s, exec_andReg x y u, by rw [h.getV_eq, h.getV_eq]; exact (h.setV x _).advance⟩
    | xorReg x y =>
      exact ⟨_, _, exec_xorReg x y s, exec_xorReg x y u, by rw [h.getV_eq, h.getV_eq]; exact (h.setV x _).advance⟩
    | addReg x y =>
      exact ⟨_, _, exec_addReg x y s, exec_addReg x y u, by simp only [h.getV_eq]; exact (h.writeResultAndFlag x _ _).advance⟩
    | subReg x y =>
      exact ⟨_, _, exec_subReg x y s, exec_subReg x y u, by simp only [h.getV_eq]; exact (h.writeResultAndFlag x _ _).advance⟩
    | shr x y =>
      exact ⟨_, _, exec_shr x y s, exec_shr x y u, by simp only [h.getV_eq]; exact (h.writeResultAndFlag x _ _).advance⟩
    | subnReg x y =>
      exact ⟨_, _, exec_subnReg x y s, exec_subnReg x y u, by simp only [h.getV_eq]; exact (h.writeResultAndFlag x _ _).advance⟩
    | shl x y =>
      exact ⟨_, _, exec_shl x y s, exec_shl x y u, by simp only [h.getV_eq]; exact (h.writeResultAndFlag x _ _).advance⟩
    | random x kk =>
      exact ⟨_, _, exec_random x kk s, exec_random x kk u, by rw [h.rand]; exact (h.setV x _).afterRand.advance⟩
    | loadI nnn => exact ⟨_, _, exec_loadI nnn s, exec_loadI nnn u, (h.setI _).advance⟩
    | addToI x => exact ⟨_, _, exec_addToI x s, exec_addToI x u, by rw [h.i, h.getV_eq]; exact (h.setI _).advance⟩
    | loadFontAddr x =>
      exact ⟨_, _, exec_loadFontAddr x s, exec_loadFontAddr x u, by rw [h.fontAddr_eq]; exact (h.setI _).advance⟩
    | draw x y n =>
      exact ⟨_, _, execDraw_pos x y n s (of_ite_none_eq_none hc), execDraw_pos x y n u (of_ite_none_eq_none hcu),
        by rw [h.drawBlit_eq]; exact ((h.showFb _).setV _ _).advance⟩
    | getDelay x => exact ⟨_, _, exec_getDelay x s, exec_getDelay x u, by rw [h.dt]; exact (h.setV x _).advance⟩
    | setDelay x => exact ⟨_, _, exec_setDelay x s, exec_setDelay x u, by rw [h.getV_eq]; exact (h.setDt _).advance⟩
    | setSound x => exact ⟨_, _, exec_setSound x s, exec_setSound x u, by rw [h.getV_eq]; exact (h.setSt _).advance⟩
    | storeBcd x =>
      exact ⟨_, _, execStoreBcd_pos x s (of_ite_none_eq_none hc), execStoreBcd_pos x u (of_ite_none_eq_none hcu),
        by rw [h.indexAddr_eq, h.getV_eq]; exact (h.writeBytes _ _).advance⟩
    | storeRegs x =>
      exact ⟨_, _, execStoreRegs_pos x s (of_ite_none_eq_none hc), execStoreRegs_pos x u (of_ite_none_eq_none hcu),
        by rw [h.indexAddr_eq, h.regBytes_eq]; exact (h.writeBytes _ _).advance⟩
    | loadRegs x =>
      exact ⟨_, _, execLoadRegs_pos x s (of_ite_none_eq_none hc), execLoadRegs_pos x u (of_ite_none_eq_none hcu),
        by rw [h.loadedRegs_eq]; exact (h.setRegs _).advance⟩
    | waitKey x =>
      by_cases hk : s.keys = 0
      · exact ⟨_, _, exec_waitKey_suspends hk x, exec_waitKey_suspends (h.keys.trans hk) x, h.setMode _⟩
      · exact ⟨_, _, exec_waitKey_captures hk x, exec_waitKey_captures (h.keys ▸ hk) x, (h.captureKey x).advance⟩
    | nopLenient0 | nopLenient8 | nopLenientE | nopLenientF =>
      exact ⟨_, _, exec_lenient rfl s, exec_lenient rfl u, h.countLenient.advance⟩

theorem settle_agrees (h : AgreeButStale s u) : AgreeButStale (settle s).state (settle u).state := by
  rw [settle_state, settle_state, h.mode, h.cfg]
  split
  · exact h.decayTimers
  · exact h

theorem stepAwaiting_agrees (h : AgreeButStale s u) (x : Nibble) :
    AgreeButStale (stepAwaiting x s).state (stepAwaiting x u).state := by
  by_cases hk : s.keys = 0
  · rw [stepAwaiting_blocks hk, stepAwaiting_blocks (h.keys.trans hk)]; exact h
  · rw [stepAwaiting_captures hk, stepAwaiting_captures (h.keys ▸ hk), ← settle_running rfl, ← settle_running rfl]
    exact ((h.captureKey x).advance.setMode .running).settle_agrees

theorem step_agrees (h : AgreeButStale s u) {t : State} (ht : step s = .next t) :
    ∃ w, step u = .next w ∧ AgreeButStale t w := by
  rcases step_cases ht with ⟨x, hm, rfl⟩ | ⟨hm, hf, rfl⟩ | ⟨hm, hf, t', ht', rfl⟩
  · exact ⟨_, step_awaiting (h.mode.trans hm), h.stepAwaiting_agrees x⟩
  · exact ⟨_, step_noFetch (h.mode.trans hm) (h.canFetch_eq.trans hf), by rw [h.pc]; exact h.enterFatal _ _ _⟩
  · obtain ⟨t₁, w, ht₁, hw, hagree⟩ := h.exec_agrees (decodeWord s.fetchWord)
    rw [ht'] at ht₁
    cases ht₁
    exact ⟨_, step_running (h.mode.trans hm) (h.canFetch_eq.trans hf) (by rw [h.fetchWord_eq]; exact hw), hagree.settle_agrees⟩

/-- The one fault of a step comes from the mode, in which the states agree. -/
theorem step_fault (h : AgreeButStale s u) {f : Fault} (hf : step s = .fault f) : step u = .fault f := by
  cases f
  by_cases hm : s.mode = .halted
  · exact step_halted (h.mode.trans hm)
  · obtain ⟨t, ht⟩ := (stepStopsExactlyWhenHalted s).1 hm
    rw [ht] at hf; cases hf

end AgreeButStale

/-- Settles O46: no operand reads a stale entry or the counter, and every operation keeps the agreement. -/
theorem staleStackAndCounterAreNeverObserved : Obligations.StaleStackAndCounterAreNeverObserved := by
  intro s u h
  have hagree : AgreeButStale s u := (agreeButStale_iff s u).2 h
  refine ⟨fun f hf => hagree.step_fault hf, fun t ht => ?_⟩
  obtain ⟨w, hw, htw⟩ := hagree.step_agrees ht
  exact ⟨w, hw, (agreeButStale_iff t w).1 htw⟩

end Sys2Proof.Machine
end

section
/-! PROOFS. Reset, launch and tick (spec 60_exceptions.md R242, 70_reset_and_hazards.md). -/

namespace Sys2Proof.Machine

theorem State.getV_strobeReset (s : State) (r : Nibble) : s.strobeReset.getV r = 0 := by simp [State.getV]

/-- After reset an address of the font area reads as the font, and every other as 0 (R35). -/
theorem State.readByte_strobeReset (s : State) (a : Nat) : s.strobeReset.readByte a = s.cfg.font[a]?.getD 0 := rfl

/-- Settles O53: the strobe writes each value, and memory with nothing listed reads as the font and 0 above it. -/
theorem resetStrobeLeavesTheResetValues : Obligations.ResetStrobeLeavesTheResetValues := by
  intro s
  refine ⟨s.strobeReset, rfl, s.getV_strobeReset, rfl, rfl, fun j => by simp, rfl, rfl, rfl, fun j => ?_, fun a ha => ?_,
    Framebuffer.get_blank, rfl, rfl, rfl, rfl, rfl, rfl, s.strobeReset_key⟩
  · simp [s.readByte_strobeReset]
  · rw [s.readByte_strobeReset, Vector.getElem?_eq_none (by omega)]; rfl

/-- Settles O54: the reset state is closed but for its free inputs, which none of these reads. -/
theorem resetStateIsWhatResetLeaves : Obligations.ResetStateIsWhatResetLeaves := ⟨rfl, rfl, rfl, rfl, rfl⟩

/-- Settles O55: the launch is a write of the image over the reset state. -/
theorem launchPlacesTheImage : Obligations.LaunchPlacesTheImage := fun s image =>
  ⟨fun h => ⟨_, launch_eq s h, fun j hj => readByte_store s.strobeReset 0x200 image j hj,
      unchangedBut_writeBytes s.strobeReset 0x200 image⟩,
   launch_eq_refused s⟩

theorem tick_decays {s : State} (hs : s.cfg.timerSource = .externalTick) (hm : s.mode ≠ .halted) :
    s.tick = s.decayTimers := by
  unfold State.tick
  cases h : s.mode <;> simp_all

theorem tick_ignored {s : State} (h : s.mode = .halted ∨ s.cfg.timerSource = .perInstruction) : s.tick = (s, false) := by
  unfold State.tick
  split <;> simp_all

/-- Settles O56: the tick is one decay, or nothing. -/
theorem tickDecaysUnderExternalTickAlone : Obligations.TickDecaysUnderExternalTickAlone := by
  refine fun s => ⟨fun hs hm => ?_, tick_ignored⟩
  rw [tick_decays hs hm]
  exact ⟨toNat_decTimer s.dt, toNat_decTimer s.st, unchangedBut_decayTimers s⟩

end Sys2Proof.Machine
end

section
/-! PROOFS. The host's port (spec 60_exceptions.md R251, R262 to R265). -/

namespace Sys2Proof.Machine

/-! ### Writes -/

theorem hostWrite_keys (s : State) (value : BitVec 32) :
    s.hostWrite 0x019 value = { s with keys := value.setWidth 16 } := rfl

theorem hostWrite_status (s : State) (value : BitVec 32) :
    s.hostWrite 0x015 value = { s with redraw := s.redraw && !value.getLsbD 0 } := by
  unfold State.hostWrite
  cases h : value.getLsbD 0 <;> simp

theorem hostWrite_other (s : State) {index : BitVec 13} (value : BitVec 32) (hk : index ≠ 0x019) (hs : index ≠ 0x015) :
    s.hostWrite index value = s := by
  rw [State.hostWrite, if_neg hk, if_neg hs]

theorem unchangedBut_keys (s : State) (k : BitVec 16) : UnchangedBut [.keys] s { s with keys := k } := by
  intro p hp
  cases p with
  | keys => simp at hp
  | _ => rfl

theorem unchangedBut_redraw (s : State) (b : Bool) : UnchangedBut [.redraw] s { s with redraw := b } := by
  intro p hp
  cases p with
  | redraw => simp at hp
  | _ => rfl

/-- Bit k of KEYS alone, as the setter builds it. -/
def keyBit (k : Nibble) : BitVec 16 := 1 <<< k.toNat

theorem getLsbD_keyBit : ∀ k q : Nibble, (keyBit k).getLsbD q.toNat = decide (q = k) := by decide

theorem setKey_eq (s : State) (k : Nibble) (p : Bool) :
    s.setKey k p = { s with keys := if p then s.keys ||| keyBit k else s.keys &&& ~~~keyBit k } := by
  rw [State.setKey, hostWrite_keys, BitVec.setWidth_setWidth_of_le _ (by decide), BitVec.setWidth_eq]
  rfl

/-- The setter sets or clears bit k of the key vector and no other (R251). -/
theorem key_setKey (s : State) (k q : Nibble) (p : Bool) : (s.setKey k p).key q = if q = k then p else s.key q := by
  have hbit := getLsbD_keyBit k q
  have hq : q.toNat < 16 := q.isLt
  rw [setKey_eq]
  cases p
  · have hclear : (s.keys &&& ~~~keyBit k).getLsbD q.toNat = (s.keys.getLsbD q.toNat && !decide (q = k)) := by
      simp only [BitVec.getLsbD_and, BitVec.getLsbD_not, hbit, hq, decide_true, Bool.true_and]
    refine hclear.trans ?_
    by_cases h : q = k <;> simp [h, State.key]
  · have hset : (s.keys ||| keyBit k).getLsbD q.toNat = (s.keys.getLsbD q.toNat || decide (q = k)) := by
      simp only [BitVec.getLsbD_or, hbit]
    refine hset.trans ?_
    by_cases h : q = k <;> simp [h, State.key]

theorem key_hostWrite_keys (s : State) (value : BitVec 32) (k : Nibble) :
    (s.hostWrite 0x019 value).key k = value.getLsbD k.toNat := by
  have hk : k.toNat < 16 := k.isLt
  rw [hostWrite_keys]; simp [State.key, hk]

/-- Settles O57: the setter and the KEYS write replace the key vector, the STATUS write REDRAW, and any other nothing. -/
theorem hostWritesReachKeysAndRedrawAlone : Obligations.HostWritesReachKeysAndRedrawAlone := by
  intro s index value k p
  refine ⟨⟨fun q => key_setKey s k q p, unchangedBut_keys s _⟩, ?_, ?_, hostWrite_other s value⟩
  · rintro rfl
    exact ⟨key_hostWrite_keys s value, unchangedBut_keys s _⟩
  · rintro rfl
    rw [hostWrite_status]
    exact ⟨rfl, unchangedBut_redraw s _⟩

/-! ### Reads -/

/-- The fields of STATUS as a number: WAIT_REG from bit 4, MODE from bit 1, REDRAW at bit 0 (R263). -/
theorem toNat_status (s : State) :
    s.status.toNat = 16 * s.mode.waitReg.toNat + 2 * s.mode.code.toNat + s.redraw.toNat := by
  unfold State.status
  generalize s.mode.waitReg = w, s.mode.code = c, s.redraw = r
  revert w c r
  decide

theorem getLsbD_status (s : State) : s.status.getLsbD 0 = s.redraw ∧ s.status.getLsbD 3 = false := by
  unfold State.status
  generalize s.mode.waitReg = w, s.mode.code = c, s.redraw = r
  revert w c r
  decide

theorem hostRead_status (s : State) : s.hostRead 0x015 = s.status.setWidth 32 := rfl

/-- Settles O58: the fields are read off the number that STATUS is, bits 0 and 3 off the register itself. -/
theorem statusShowsRedrawModeAndWaitRegister : Obligations.StatusShowsRedrawModeAndWaitRegister := by
  intro s
  obtain ⟨hred, hres⟩ := getLsbD_status s
  have hw := s.mode.waitReg.isLt
  have hc := s.mode.code.isLt
  have hr := s.redraw.toNat_lt
  rw [hostRead_status, BitVec.toNat_setWidth_of_le (by decide), toNat_status]
  refine ⟨?_, ?_, ?_, fun hm => ?_, fun t hm => ?_, fun hm => ?_⟩
  · rw [BitVec.getLsbD_setWidth, hred]; rfl
  · rw [BitVec.getLsbD_setWidth, hres]; rfl
  · omega
  · simp [hm, Mode.waitReg, Mode.code]; omega
  · simp [hm, Mode.waitReg, Mode.code]; omega
  · simp [hm, Mode.waitReg, Mode.code]; omega

/-- The index of a register in the map, as the number it is. -/
theorem toNat_ofNat_index {k : Nat} (h : k < 0x2000) : (BitVec.ofNat 13 k).toNat = k := by
  rw [BitVec.toNat_ofNat]; exact Nat.mod_eq_of_lt h

theorem hostRead_v (s : State) (r : Nibble) : s.hostRead (BitVec.ofNat 13 r.toNat) = (s.getV r).setWidth 32 := by
  have hr := r.isLt
  have hk := toNat_ofNat_index (k := r.toNat) (by omega)
  simp only [State.hostRead, hk]
  rw [if_pos (by omega)]
  congr 2
  apply BitVec.eq_of_toNat_eq
  rw [BitVec.toNat_setWidth, hk]; omega

theorem hostRead_stack (s : State) (j : Fin 16) :
    s.hostRead (BitVec.ofNat 13 (0x020 + j.val)) = s.stack[j.val].setWidth 32 := by
  have hk := toNat_ofNat_index (k := 0x020 + j.val) (by omega)
  have hj : ((BitVec.ofNat 13 (0x020 + j.val)).setWidth 4).toNat = j.val := by
    rw [BitVec.toNat_setWidth, hk]; omega
  unfold State.hostRead
  simp only [hk, hj]
  simp (disch := omega) only [if_neg, if_pos]

theorem hostRead_mem (s : State) (a : Fin 4096) :
    s.hostRead (BitVec.ofNat 13 (0x1000 + a.val)) = (s.readByte a.val).setWidth 32 := by
  have hk := toNat_ofNat_index (k := 0x1000 + a.val) (by omega)
  simp only [State.hostRead, hk]
  simp (disch := omega) only [if_neg, Nat.add_sub_cancel_left]

theorem hostRead_reserved (s : State) {k : Nat}
    (h : (0x01B ≤ k ∧ k ≤ 0x01F) ∨ (0x030 ≤ k ∧ k ≤ 0x0FF) ∨ (0x200 ≤ k ∧ k ≤ 0xFFF)) :
    s.hostRead (BitVec.ofNat 13 k) = 0 := by
  have hk := toNat_ofNat_index (k := k) (by omega)
  simp only [State.hostRead, hk]
  simp (disch := omega) only [if_neg, if_pos, ite_self]

theorem hostRead_fbByte (s : State) (b : Byte) :
    s.hostRead (BitVec.ofNat 13 (0x100 + b.toNat)) = (s.fbByte b).setWidth 32 := by
  have hb := b.isLt
  have hk := toNat_ofNat_index (k := 0x100 + b.toNat) (by omega)
  have hindex : (BitVec.ofNat 13 (0x100 + b.toNat)).setWidth 8 = b := by
    apply BitVec.eq_of_toNat_eq
    rw [BitVec.toNat_setWidth, hk]; omega
  simp only [State.hostRead, hk, hindex]
  simp (disch := omega) only [if_neg, if_pos]

/-- Bit 7 - k of an FB_BYTE is the pixel k columns right of its first (R264). -/
theorem getLsbD_fbByte (s : State) (b : Byte) (k : Fin 8) :
    (s.fbByte b).getLsbD (7 - k.val) =
      s.pixel ⟨8 * (b.toNat % 8) + k.val, by omega⟩ ⟨b.toNat / 8, by have := b.isLt; omega⟩ := by
  rw [State.fbByte, BitVec.getLsbD_ofFnLE, dif_pos (by omega)]
  congr 2
  change 8 * (b.toNat % 8) + (7 - (7 - k.val)) = _
  omega

/-- Settles O59: the index of the group of row cy and column group c is 8 cy + c, whose row and group are these. -/
theorem framebufferBytesPackPixelsLeftmostFirst : Obligations.FramebufferBytesPackPixelsLeftmostFirst := by
  intro s cy c k
  have hb : (BitVec.ofNat 8 (8 * cy.val + c.val)).toNat = 8 * cy.val + c.val := by
    rw [BitVec.toNat_ofNat]; omega
  have hread := hostRead_fbByte s (BitVec.ofNat 8 (8 * cy.val + c.val))
  rw [hb, ← Nat.add_assoc] at hread
  rw [hread, BitVec.getLsbD_setWidth, getLsbD_fbByte, decide_eq_true (by omega), Bool.true_and]
  simp only [hb]
  congr 2 <;> omega

/-- The code of a cause is its number in the table (R231). -/
theorem toNat_code (c : Option FatalCause) : (FatalCause.code c).toNat = match c with
    | none => 0 | some .stackOverflow => 1 | some .stackUnderflow => 2 | some .pcOutOfBounds => 3
    | some .memOutOfBounds => 4 | some .keyIndexOutOfRange => 5 := by
  cases c with
  | none => rfl
  | some c => cases c <;> rfl

/-- A register read is zero-extended to the width of the port. -/
theorem toNat_setWidth_port {n : Nat} (w : BitVec n) (h : n ≤ 32 := by decide) : (w.setWidth 32).toNat = w.toNat :=
  BitVec.toNat_setWidth_of_le h

/-- Settles O60: each index takes its own arm of the map. -/
theorem hostReadsEveryRegister : Obligations.HostReadsEveryRegister := by
  intro s
  refine ⟨fun r => ?_, toNat_setWidth_port s.i, toNat_setWidth_port s.pc, ?_, toNat_setWidth_port s.dt,
    toNat_setWidth_port s.st, ?_, toNat_setWidth_port s.faultPc, toNat_setWidth_port s.faultInstr,
    toNat_setWidth_port s.keys, rfl, fun j => ?_, fun a => ?_, fun k => hostRead_reserved s⟩
  · rw [hostRead_v, toNat_setWidth_port]
  · have hsp : s.hostRead 0x012 = BitVec.ofNat 32 s.sp.val := rfl
    rw [hsp, BitVec.toNat_ofNat]; omega
  · exact (toNat_setWidth_port (FatalCause.code s.faultCause)).trans (toNat_code s.faultCause)
  · rw [hostRead_stack, toNat_setWidth_port]
  · rw [hostRead_mem, toNat_setWidth_port]

end Sys2Proof.Machine
end
